-- ==== Sys2Proof/Word.lean ====
section
/-! DEFINITION. The plain value types of smadata2-CORE: bytes, unsigned integers, 6-byte addresses
(spec/00_scope.md R9, R11). -/

namespace Sys2Proof

/-- A byte is 8 bits (R9). -/
abbrev Byte := BitVec 8

/-- `u15`, the width of a tag (R9, R35). -/
abbrev U15 := BitVec 15

/-- `u16` (R9). -/
abbrev U16 := BitVec 16

/-- `u17`, the width of `ACC.expected` (R9, R34). -/
abbrev U17 := BitVec 17

/-- `u32` (R9). -/
abbrev U32 := BitVec 32

/-- A 6-byte address in wire order, `b0` first on the wire: a byte string compared byte for byte,
never an integer (spec/20_memory.md R61). -/
structure Addr where
  b0 : Byte
  b1 : Byte
  b2 : Byte
  b3 : Byte
  b4 : Byte
  b5 : Byte
  deriving DecidableEq, Repr

/-- The address whose six bytes are all `b`. -/
def Addr.fill (b : Byte) : Addr := ⟨b, b, b, b, b, b⟩

/-- The six bytes of an address in wire order. -/
def Addr.bytes (a : Addr) : List Byte := [a.b0, a.b1, a.b2, a.b3, a.b4, a.b5]

end Sys2Proof
end

