-- ==== Sys2Proof/Config.lean ====
section
/-! DEFINITION. The implementation parameters of spec/00_scope.md R8. They are arguments of the model:
State carries one `Config` that no step changes, so what is proved of every state is proved for every
value of the parameters (notes/assumptions/1.md). -/

namespace Sys2Proof

/-- The parameters of R8. A capacity is `none` when it is infinite. `BCAST`, `ZERO_ADDR`, `N_PENDING`
and `OUTER_MAX` are fixed by the source and are no fields (Machine/Wire.lean has them). -/
structure Config where
  /-- outer `type` of a PPP carrier frame -/
  otypePpp : U16
  /-- outer `type` of the second PPP carrier -/
  otypePpp2 : U16
  /-- handshake type; used by no rule -/
  otypeHello : U16
  /-- variable query type; used by no rule -/
  otypeGetvar : U16
  /-- variable reply type; used by no rule -/
  otypeVarval : U16
  /-- error type; used by no rule -/
  otypeError : U16
  /-- "the fixed SMA protocol identifier" -/
  smaProtocolId : U16
  /-- the broadcast form of the secondary address -/
  bcast2 : Addr
  /-- reset value of `LOCAL_ADDR` -/
  localAddrReset : Addr
  /-- reset value of `LOCAL_ADDR2` -/
  localAddr2Reset : Addr
  /-- number of per-address reassembly entries -/
  nSrc : Option Nat
  /-- bytes one reassembly buffer can hold -/
  pppBufMax : Option Nat
  /-- inner messages the accumulator can hold -/
  accMaxPkts : Option Nat
  /-- reset value of `TAGCTR` -/
  tagReset : U15
  deriving DecidableEq, Repr

/-- The defaults of R8. DESIGN CHOICE (unsafe, notes/assumptions/1.md): `State.reset` uses them; the
spec marks the `OTYPE_*` values and `SMA_PROTOCOL_ID` as general knowledge (G3, G4). -/
def Config.default : Config where
  otypePpp := 0x0001
  otypePpp2 := 0x0008
  otypeHello := 0x0002
  otypeGetvar := 0x0003
  otypeVarval := 0x0004
  otypeError := 0x0007
  smaProtocolId := 0x6560
  bcast2 := Addr.fill 0xFF
  localAddrReset := Addr.fill 0x00
  localAddr2Reset := Addr.fill 0x00
  nSrc := none
  pppBufMax := none
  accMaxPkts := none
  tagReset := 0

end Sys2Proof
end

