-- ==== Sys2Proof/Syntax.lean ====
section
/-! DEFINITION. The syntax of smadata2-CORE: error causes, inner messages, and `Instr`, one constructor
for each of the 38 rows of spec/opcode_table.json; what the environment presents. -/

namespace Sys2Proof

/-- The error kinds of spec/60_exceptions.md R360, R361. -/
inductive ErrKind where
  | framing
  | crc
  | protocol
  | device
  | argument
  | internal
  | resource
  | busy
  deriving DecidableEq, Repr

/-- The causes of R362, one constructor for each row of its table, in the table's order. -/
inductive Cause where
  | outShort
  | outStart
  | outLen
  | outCksum
  | outLenSmall
  | noOpenFlag
  | truncEsc
  | pppShort
  | badTerm
  | pppCrc
  | badMarker
  | wrongProtocol
  | innerShort
  | innerLen
  | missingFirst
  | outOfOrder
  | device
  | extraAlign
  | innerTooLong
  | tagRange
  | typeBit0
  | outTooLong
  | badOpcode
  | badReg
  | accCount
  | srcTableFull
  | pppBufOverflow
  | accCapacity
  | busy
  deriving DecidableEq, Repr

/-- An error `(kind, sub, info)`: the cause fixes kind and sub-cause (R362), `info` is a u16. -/
structure Err where
  cause : Cause
  info : U16
  deriving DecidableEq, Repr

/-- The outcome of a pure operation, `ok(value)` or `err(kind, sub, info)` (spec/00_scope.md R13). -/
inductive Result (α : Type) where
  | ok (value : α)
  | err (e : Err)
  deriving DecidableEq, Repr

/-- The two predicates of a wait, `PEND.mode` (spec/45_correlation.md R271). -/
inductive Mode where
  | single
  | multi
  deriving DecidableEq, Repr

/-- An InnerMessage (spec/44_inner_message.md R240). `tag` and `msgType` are 16 bits wide, so that the
checks TAG_RANGE and TYPE_BIT0 of R243 have something to refuse (notes/assumptions/13.md);
`InnerMessage.wf` is the record of R240. -/
structure InnerMessage where
  a2 : Byte
  to2 : Addr
  b1 : Byte
  b2 : Byte
  from2 : Addr
  c1 : Byte
  c2 : Byte
  error : U16
  pktcount : U16
  tag : U16
  first : Bool
  response : Bool
  msgType : U16
  subtype : U16
  arg1 : U32
  arg2 : U32
  extra : List Byte
  deriving DecidableEq, Repr

/-- A command word whose opcode is not assigned: the opcode, and the bytes after it. -/
structure UnassignedWord where
  opcode : Byte
  operands : List Byte
  deriving DecidableEq, Repr

/-- An inner message and the source that sends it over the link. -/
structure SentMessage where
  src : Addr
  msg : InnerMessage
  deriving DecidableEq, Repr

/-- One constructor for each row of spec/opcode_table.json. -/
inductive Instr where
  /-- ESC_ENC, R141 -/
  | escEnc (data : List Byte)
  /-- ESC_DEC, R143 -/
  | escDec (body : List Byte)
  /-- STUFF, R142 -/
  | stuff (frame : List Byte)
  /-- DESTUFF, R144 -/
  | destuff (raw : List Byte)
  /-- CRC16, R161 -/
  | crc16 (data : List Byte)
  /-- CRC_APPEND, R163 -/
  | crcAppend (data : List Byte)
  /-- CRC_CHECK, R164 -/
  | crcCheck (frame : List Byte)
  /-- OUTER_PARSE, R181 -/
  | outerParse (buf : List Byte)
  /-- OUTER_BUILD, R183 -/
  | outerBuild (src dst : Addr) (typ : U16) (payload : List Byte)
  /-- OUTER_FILTER, R185 -/
  | outerFilter (dst : Addr)
  /-- PPP_EXTRACT, R212 -/
  | pppExtract (raw : List Byte)
  /-- PPP_BUILD, R214 -/
  | pppBuild (protocol : U16) (body : List Byte)
  /-- INNER_PARSE, R241 -/
  | innerParse (body : List Byte)
  /-- INNER_BUILD, R243 -/
  | innerBuild (msg : InnerMessage)
  /-- INNER_FILTER, R245 -/
  | innerFilter (to2 : Addr)
  /-- RESET, R322 -/
  | reset
  /-- SETADDR, R323 -/
  | setaddr (addr : Addr)
  /-- SETADDR2, R324 -/
  | setaddr2 (addr : Addr)
  /-- TAGALLOC, R325 -/
  | tagalloc
  /-- ARM, R326 -/
  | arm (tag : U16) (mode : Mode)
  /-- SEND, R327; an operand that is `none` takes its default -/
  | send (msg : InnerMessage) (src dst : Option Addr) (typ : Option U16)
  /-- REQUEST, R328 -/
  | request (msg : InnerMessage) (mode : Mode)
  /-- ABORT, R329 -/
  | abort
  /-- FLUSH, R330 -/
  | flush
  /-- RDREG, R331 -/
  | rdreg (reg : Byte)
  /-- ILLEGAL, R333: an opcode that is not assigned, and whatever bytes follow it (R372) -/
  | illegal (word : UnassignedWord)
  /-- RX_BYTE, R190 -/
  | rxByte (b : Byte)
  /-- OUTER_DELIVER, R193 -/
  | outerDeliver (frame : List Byte)
  /-- PPP_RX, R217 -/
  | pppRx (src : Addr) (payload : List Byte)
  /-- INNER_RX, R247 -/
  | innerRx (protocol : U16) (body : List Byte)
  /-- DISPATCH, R276 -/
  | dispatch (msg : InnerMessage)
  /-- ACC_STEP, R302 -/
  | accStep (msg : InnerMessage)
  /-- RAISE, R365 -/
  | raise (e : Err)
  /-- FMT_ESCAPE_PAIR, R95: `7D v` in the stuffed stream of source `src` -/
  | fmtEscapePair (src : Addr) (v : Byte)
  /-- FMT_FLAG, R95: `7E` in the stuffed stream of source `src` -/
  | fmtFlag (src : Addr)
  /-- FMT_OUTER_FRAME, R100 -/
  | fmtOuterFrame (src dst : Addr) (typ : U16) (payload : List Byte)
  /-- FMT_PPP_FRAME, R105, from source `src` -/
  | fmtPppFrame (src : Addr) (protocol : U16) (body : List Byte)
  /-- FMT_INNER_MESSAGE, R110 -/
  | fmtInnerMessage (msg : SentMessage)
  deriving DecidableEq, Repr

/-- A unit of one of the table's formats S, O, P, I, as a station at the other end of the link sends it
(notes/assumptions/7.md). Its bytes reach the block one by one, on the receive port. -/
inductive WireUnit where
  /-- a symbol of format S in the stuffed stream of source `src` -/
  | symbol (src : Addr) (w : List Byte)
  /-- a unit of format O -/
  | outerFrame (w : List Byte)
  /-- a de-stuffed unit of format P from source `src` -/
  | pppFrame (src : Addr) (w : List Byte)
  /-- a unit of format I from source `src` -/
  | innerMessage (src : Addr) (w : List Byte)
  deriving DecidableEq, Repr

/-- What one stimulus of the environment carries, before it is decoded. `command` and `rxByte` are the
block's two input ports (D2). -/
inductive Presented where
  /-- a word on the command port: the opcode byte, then the packed operands -/
  | command (w : List Byte)
  /-- one byte on the receive port -/
  | rxByte (b : Byte)
  /-- a unit put on the link: no port, but bytes that will arrive on the receive port -/
  | unit (u : WireUnit)
  deriving DecidableEq, Repr

/-- Why a word decodes to no instruction. -/
inductive DecodeError where
  /-- a command word without an opcode byte -/
  | emptyWord
  /-- a command word that ends before its last fixed operand -/
  | truncatedOperands
  /-- a command word with bytes after its last operand -/
  | trailingBytes
  /-- a selector byte (a mode, the flags of a message, the operands present) with a bit that stands
  for nothing -/
  | reservedSelector
  /-- a symbol that is neither a flag nor an escape pair -/
  | notASymbol
  /-- bytes that are no unit of format O, P or I; the error that says why -/
  | notAUnit (e : Err)
  deriving DecidableEq, Repr

end Sys2Proof
end

