-- ==== Sys2Proof/Machine/Wire.lean ====
section
/-! DEFINITION. The constants of the wire formats (spec/30_encoding.md R91), the codes of
spec/60_exceptions.md R361, R362 and spec/30_encoding.md R131, the capacity tests, and `Result` as a sequence
of checks. -/

namespace Sys2Proof.Machine
open Sys2Proof

/-- `FLAG`, R91. -/
def flag : Byte := 0x7E

/-- `ESC`, R91. -/
def esc : Byte := 0x7D

/-- `ESC_XOR`, R91. -/
def escXor : Byte := 0x20

/-- The predicate `reserved` of spec/40_escape_codec.md R140. -/
def reserved (b : Byte) : Bool := b == 0x7E || b == 0x7D || b == 0x11 || b == 0x13

/-- `PPP_MARKER`, R91. -/
def pppMarker : List Byte := [0xFF, 0x03]

/-- `OUTER_HLEN`, R91. -/
def outerHlen : Nat := 18

/-- `OUTER_MAX`, R91. -/
def outerMax : Nat := 0x70

/-- `INNER_HLEN`, R91. -/
def innerHlen : Nat := 36

/-- `BCAST`, R91. -/
def bcast : Addr := Addr.fill 0xFF

/-- `ZERO_ADDR`, R91. -/
def zeroAddr : Addr := Addr.fill 0x00

/-- The kind of a cause, the first column of R362. -/
def causeKind : Cause → ErrKind
  | .outShort | .outStart | .outLen | .outCksum | .outLenSmall | .noOpenFlag | .truncEsc | .pppShort
  | .badTerm => .framing
  | .pppCrc => .crc
  | .badMarker | .wrongProtocol | .innerShort | .innerLen | .missingFirst | .outOfOrder => .protocol
  | .device => .device
  | .extraAlign | .innerTooLong | .tagRange | .typeBit0 | .outTooLong | .badOpcode | .badReg => .argument
  | .accCount => .internal
  | .srcTableFull | .pppBufOverflow | .accCapacity => .resource
  | .busy => .busy

/-- The sub-cause code of a cause, the second column of R362. -/
def causeSub : Cause → Byte
  | .outShort => 1
  | .outStart => 2
  | .outLen => 3
  | .outCksum => 4
  | .outLenSmall => 5
  | .noOpenFlag => 6
  | .truncEsc => 7
  | .pppShort => 8
  | .badTerm => 9
  | .pppCrc => 1
  | .badMarker => 1
  | .wrongProtocol => 2
  | .innerShort => 3
  | .innerLen => 4
  | .missingFirst => 5
  | .outOfOrder => 6
  | .device => 1
  | .extraAlign => 1
  | .innerTooLong => 2
  | .tagRange => 3
  | .typeBit0 => 4
  | .outTooLong => 5
  | .badOpcode => 6
  | .badReg => 7
  | .accCount => 1
  | .srcTableFull => 1
  | .pppBufOverflow => 2
  | .accCapacity => 3
  | .busy => 1

/-- The code of a kind, R361. -/
def kindCode : ErrKind → Byte
  | .framing => 1
  | .crc => 2
  | .protocol => 3
  | .device => 4
  | .argument => 5
  | .internal => 6
  | .resource => 7
  | .busy => 8

/-- Whether a kind reaches the host through RAISE, the column "path" of R361. -/
def raisable : ErrKind → Bool
  | .argument | .busy => false
  | _ => true

/-- The mode codes of R131. -/
def modeCode : Mode → Nat
  | .single => 0
  | .multi => 1

/-- An `info` value: 16 bits, a larger number saturates (R362). -/
def info16 (n : Nat) : U16 := if 0xFFFF < n then 0xFFFF else BitVec.ofNat 16 n

/-- Whether `n` things exceed a capacity (`none` is infinite). -/
def exceeds (n : Nat) (cap : Option Nat) : Bool :=
  match cap with
  | none => false
  | some c => decide (c < n)

/-- Whether `n` things fill a capacity exactly, the test `n = N_SRC` of R217. -/
def fills (n : Nat) (cap : Option Nat) : Bool :=
  match cap with
  | none => false
  | some c => decide (n = c)

/-- `err(kind, sub, info)` with `info` a natural number. -/
def errOf (c : Cause) (n : Nat) : Err := ⟨c, info16 n⟩

/-- Continue with the value of a successful operation, keep the error of a failed one. -/
def andThen {α β : Type} (r : Result α) (f : α → Result β) : Result β :=
  match r with
  | .ok v => f v
  | .err e => .err e

/-- Apply a function to the value of a successful operation. -/
def mapOk {α β : Type} (f : α → β) (r : Result α) : Result β :=
  match r with
  | .ok v => .ok (f v)
  | .err e => .err e

end Sys2Proof.Machine
end

