-- ==== Sys2Proof/Machine/Operands.lean ====
section
/-! DEFINITION. The forms an operand takes: byte order and the buffer primitives (spec/00_scope.md R11,
spec/20_memory.md R61, R68), and the packing of typed operands on the command port. The packing is the
model's own, since R130 leaves it open (DESIGN CHOICE, notes/assumptions/5.md). -/

namespace Sys2Proof.Machine
open Sys2Proof

/-! ## Buffers (R11, R68) -/

/-- The unsigned integer whose little-endian encoding is a byte string. -/
def leNat : List Byte → Nat
  | [] => 0
  | b :: bs => b.toNat + 256 * leNat bs

/-- The `n`-byte little-endian encoding of the low `8 * n` bits of `v`. -/
def leBytes : Nat → Nat → List Byte
  | 0, _ => []
  | n + 1, v => BitVec.ofNat 8 v :: leBytes n (v / 256)

/-- `Bytes(buf, off, n) = buf[off..off+n)`, R11. -/
def bytesAt (buf : List Byte) (off n : Nat) : List Byte := (buf.drop off).take n

/-- `MemRead(buf, off, n)`, R11; outside the buffer, where R11 defines nothing, absent bytes count as 0,
and no rule reads there (notes/assumptions/11.md). -/
def memRead (buf : List Byte) (off n : Nat) : Nat := leNat (bytesAt buf off n)

/-- `MemWrite(buf, off, n, v)`, R11. -/
def memWrite (buf : List Byte) (off n v : Nat) : List Byte :=
  buf.take off ++ leBytes n v ++ buf.drop (off + n)

/-- `append(buf, b)`, R68. -/
def append (buf : List Byte) (b : Byte) : List Byte := buf ++ [b]

/-- `buf[i]`, R9 (`0` outside the buffer, where no rule reads). -/
def byteAt (buf : List Byte) (i : Nat) : Byte := buf.getD i 0

/-- `LE16(v)`, R11. -/
def le16 (v : U16) : List Byte := leBytes 2 v.toNat

/-- `LE32(v)`, R11. -/
def le32 (v : U32) : List Byte := leBytes 4 v.toNat

/-- `MemRead(buf, off, 2)` as a u16. -/
def read16 (buf : List Byte) (off : Nat) : U16 := BitVec.ofNat 16 (memRead buf off 2)

/-- `MemRead(buf, off, 4)` as a u32. -/
def read32 (buf : List Byte) (off : Nat) : U32 := BitVec.ofNat 32 (memRead buf off 4)

/-- `Bytes(buf, off, 6)` as an address. -/
def addrAt (buf : List Byte) (off : Nat) : Addr :=
  ⟨byteAt buf off, byteAt buf (off + 1), byteAt buf (off + 2), byteAt buf (off + 3),
   byteAt buf (off + 4), byteAt buf (off + 5)⟩

/-! ## Operands on the command port -/

/-- A parser of operands: a value and the bytes after it. -/
abbrev Take (α : Type) := Except DecodeError (α × List Byte)

/-- A u8 operand. -/
def takeByte : List Byte → Take Byte
  | b :: r => .ok (b, r)
  | _ => .error .truncatedOperands

/-- A u16 operand, little-endian. -/
def takeU16 : List Byte → Take U16
  | b0 :: b1 :: r => .ok (BitVec.ofNat 16 (leNat [b0, b1]), r)
  | _ => .error .truncatedOperands

/-- A u32 operand, little-endian. -/
def takeU32 : List Byte → Take U32
  | b0 :: b1 :: b2 :: b3 :: r => .ok (BitVec.ofNat 32 (leNat [b0, b1, b2, b3]), r)
  | _ => .error .truncatedOperands

/-- A 6-byte address operand, in wire order. -/
def takeAddr : List Byte → Take Addr
  | b0 :: b1 :: b2 :: b3 :: b4 :: b5 :: r => .ok (⟨b0, b1, b2, b3, b4, b5⟩, r)
  | _ => .error .truncatedOperands

/-- A mode operand: one byte, 0 or 1 (R131). -/
def takeMode : List Byte → Take Mode
  | b :: r => if b = 0 then .ok (.single, r) else if b = 1 then .ok (.multi, r) else .error .reservedSelector
  | _ => .error .truncatedOperands

/-- The byte a mode operand is packed into. -/
def packMode (m : Mode) : List Byte :=
  match m with
  | .single => [0]
  | .multi => [1]

/-- An operand that is present exactly when `present` holds. -/
def takeIf {α : Type} (present : Bool) (take : List Byte → Take α) (bs : List Byte) : Take (Option α) :=
  if present then
    match take bs with
    | .ok (v, r) => .ok (some v, r)
    | .error e => .error e
  else .ok (none, bs)

/-- Bit 0 of the flags byte of a packed message is `first`, bit 1 is `response`. -/
def packFlags (first response : Bool) : Byte :=
  (if first then 1 else 0) ||| (if response then 2 else 0)

/-- An InnerMessage operand: its fixed fields in the order of R110 (a flags byte for `first` and
`response`), then `extra`, which is the rest of the word. -/
def packMsg (m : InnerMessage) : List Byte :=
  [m.a2] ++ m.to2.bytes ++ [m.b1, m.b2] ++ m.from2.bytes ++ [m.c1, m.c2] ++ le16 m.error ++ le16 m.pktcount
    ++ le16 m.tag ++ [packFlags m.first m.response] ++ le16 m.msgType ++ le16 m.subtype ++ le32 m.arg1
    ++ le32 m.arg2 ++ m.extra

/-- The InnerMessage operand that a packed message stands for. -/
def takeMsg (bs : List Byte) : Except DecodeError InnerMessage := do
  let (a2, bs) ← takeByte bs
  let (to2, bs) ← takeAddr bs
  let (b1, bs) ← takeByte bs
  let (b2, bs) ← takeByte bs
  let (from2, bs) ← takeAddr bs
  let (c1, bs) ← takeByte bs
  let (c2, bs) ← takeByte bs
  let (error, bs) ← takeU16 bs
  let (pktcount, bs) ← takeU16 bs
  let (tag, bs) ← takeU16 bs
  let (flags, bs) ← takeByte bs
  let (msgType, bs) ← takeU16 bs
  let (subtype, bs) ← takeU16 bs
  let (arg1, bs) ← takeU32 bs
  let (arg2, bs) ← takeU32 bs
  if flags &&& 0xFC = 0 then
    .ok { a2, to2, b1, b2, from2, c1, c2, error, pktcount, tag, first := flags.getLsbD 0,
          response := flags.getLsbD 1, msgType, subtype, arg1, arg2, extra := bs }
  else .error .reservedSelector

/-- The byte that says which of SEND's optional operands are present. -/
def packPresent (src dst typ : Bool) : Byte :=
  (if src then 1 else 0) ||| (if dst then 2 else 0) ||| (if typ then 4 else 0)

/-- An operand list that must be used up: nothing may follow the last operand. -/
def atEnd {α : Type} (t : Take α) : Except DecodeError α :=
  match t with
  | .ok (v, []) => .ok v
  | .ok (_, _ :: _) => .error .trailingBytes
  | .error e => .error e

/-- An opcode without operands. -/
def noOperands (i : Instr) (bs : List Byte) : Except DecodeError Instr :=
  match bs with
  | [] => .ok i
  | _ :: _ => .error .trailingBytes

end Sys2Proof.Machine
end

