-- ==== Sys2Proof/Machine/Inner.lean ====
section
/-! DEFINITION. Unit U5, the inner message parser and builder: the pure functions of
spec/44_inner_message.md over the layout of spec/30_encoding.md R110. -/

namespace Sys2Proof.Machine
open Sys2Proof

/-- The fields of a body in the layout of R110, with the tag and type fields taken apart as R112 and
R113 say. -/
def innerFields (body : List Byte) : InnerMessage where
  a2 := byteAt body 1
  to2 := addrAt body 2
  b1 := byteAt body 8
  b2 := byteAt body 9
  from2 := addrAt body 10
  c1 := byteAt body 16
  c2 := byteAt body 17
  error := read16 body 18
  pktcount := read16 body 20
  tag := read16 body 22 &&& 0x7FFF
  first := (read16 body 22).getLsbD 15
  response := (read16 body 24).getLsbD 0
  msgType := read16 body 24 &&& 0xFFFE
  subtype := read16 body 26
  arg1 := read32 body 28
  arg2 := read32 body 32
  extra := body.drop innerHlen

/-- INNER_PARSE, R241. -/
def innerParse (body : List Byte) : Result InnerMessage :=
  if body.length < innerHlen then .err (errOf .innerShort body.length)
  else if (byteAt body 0).toNat * 4 ≠ body.length then .err (errOf .innerLen (byteAt body 0).toNat)
  else .ok (innerFields body)

/-- The wire field `tag` of R112. -/
def wireTag (m : InnerMessage) : U16 := (if m.first then 0x8000 else 0) ||| m.tag

/-- The wire field `type` of R113. -/
def wireType (m : InnerMessage) : U16 := m.msgType ||| (if m.response then 1 else 0)

/-- `innerlen`, the length of the whole inner message in 4-byte words (R111). -/
def innerWords (m : InnerMessage) : Nat := (innerHlen + m.extra.length) / 4

/-- The bytes of an inner message in the layout of R110. -/
def innerUnit (m : InnerMessage) : List Byte :=
  [BitVec.ofNat 8 (innerWords m), m.a2] ++ m.to2.bytes ++ [m.b1, m.b2] ++ m.from2.bytes ++ [m.c1, m.c2]
    ++ le16 m.error ++ le16 m.pktcount ++ le16 (wireTag m) ++ le16 (wireType m) ++ le16 m.subtype
    ++ le32 m.arg1 ++ le32 m.arg2 ++ m.extra

/-- INNER_BUILD, R243: the four checks in their order. -/
def innerBuild (m : InnerMessage) : Result (List Byte) :=
  if m.extra.length % 4 ≠ 0 then .err (errOf .extraAlign (m.extra.length % 4))
  else if 255 < innerWords m then .err (errOf .innerTooLong 0)
  else if 0x7FFF < m.tag.toNat then .err (errOf .tagRange 0)
  else if m.msgType.getLsbD 0 then .err (errOf .typeBit0 m.msgType.toNat)
  else .ok (innerUnit m)

/-- INNER_FILTER, R245, with the local secondary address and its broadcast form as arguments. -/
def innerFilter (localAddr2 bcast2 to2 : Addr) : Bool := to2 == localAddr2 || to2 == bcast2

end Sys2Proof.Machine
end

