-- ==== Sys2Proof/Machine/State.lean ====
section
/-! DEFINITION. The state of smadata2-CORE (spec/10_state.md R20) and its reset value (R48). -/

namespace Sys2Proof.Machine
open Sys2Proof

/-- `PEND`, the one pending request (R32). -/
structure Pend where
  valid : Bool
  mode : Mode
  tag : U15
  deriving DecidableEq, Repr

/-- `CST`, the state of the correlation state machine (R33). -/
inductive Cst where
  | idle
  | awaitingFirst
  | accumulating
  | complete
  | failed
  deriving DecidableEq, Repr

/-- An event of `EVQ` (R40). -/
inductive Event where
  /-- `EV_OUTER(from, to, type, payload)` -/
  | outer (src dst : Addr) (typ : U16) (payload : List Byte)
  /-- `EV_RESULT_SINGLE(msg)` -/
  | resultSingle (msg : InnerMessage)
  /-- `EV_RESULT_MULTI(msgs)` -/
  | resultMulti (msgs : List InnerMessage)
  /-- `EV_ERROR(kind, sub, info)` -/
  | error (e : Err)
  /-- `EV_ABORTED(tag)` -/
  | aborted (tag : U15)
  deriving DecidableEq, Repr

/-- The value of an `ok` response (spec/30_encoding.md R130, last column). -/
inductive Value where
  | none
  | bytes (bs : List Byte)
  | u16 (v : U16)
  | tag (v : U15)
  | bit (b : Bool)
  | outerHeader (len : Byte) (src dst : Addr) (typ : U16)
  | pppFrame (protocol : U16) (body : List Byte)
  | message (msg : InnerMessage)
  | nat (n : Nat)
  | addr (a : Addr)
  deriving DecidableEq, Repr

/-- The response of a host command (R42). -/
abbrev Response := Result Value

/-- What the environment presents next (spec/00_scope.md R15): a word, a hardware reset
(R400), or the consumption of the first `n` events of `EVQ` (R40) or bytes of `TXQ` (R41). -/
inductive Stimulus where
  | word (w : Presented)
  | hardReset
  | takeEvents (n : Nat)
  | takeTx (n : Nat)
  deriving DecidableEq, Repr

/-- The state of the block, R20, and three fields of the model's own: `cfg`, `resp`, `inputs`. -/
structure State where
  /-- THE MODEL'S OWN: the parameters of R8, which no step changes (notes/assumptions/1.md) -/
  cfg : Config
  /-- `LOCAL_ADDR`, R24 -/
  localAddr : Addr
  /-- `LOCAL_ADDR2`, R25 -/
  localAddr2 : Addr
  /-- `TAGCTR`, R35 -/
  tagctr : U15
  /-- `PEND`, R32 -/
  pend : Pend
  /-- `CST`, R33 -/
  cst : Cst
  /-- `ACC.expected`, R34 -/
  accExpected : Option U17
  /-- `ACC.collected`, R34 -/
  accCollected : List InnerMessage
  /-- `ESR`, R36 -/
  esr : Byte
  /-- `OB`, R26 -/
  ob : List Byte
  /-- `RB`, R30: keys strictly rising, no empty buffer (Machine/Ops.lean, `rbWf`) -/
  rb : List (Addr × List Byte)
  /-- `EVQ`, R40 -/
  evq : List Event
  /-- `TXQ`, R41 -/
  txq : List Byte
  /-- THE MODEL'S OWN: what the response port shows, R42 (notes/assumptions/4.md) -/
  resp : Option Response
  /-- THE MODEL'S OWN: the stimuli still to come, R15 (notes/assumptions/2.md) -/
  inputs : List Stimulus
  deriving DecidableEq, Repr

/-- Why the machine stops with a fault. There is no such reason: "do not crash or hang" (R377, R425). An
error of the block is an event or a response, and the machine goes on. -/
inductive Fault where
  deriving DecidableEq, Repr

/-- Why a step is refused. -/
inductive Refusal where
  /-- `exec` has no meaning for an instruction yet; raised by no arm of this model; safe -/
  | notModelled (mnemonic : String)
  /-- `step`: a word on the command port is no command, for the reason given: it has no opcode byte, or the
  bytes after an assigned opcode are no packing of its operands; safe (notes/assumptions/6.md): "How operands
  are packed onto wires is not specified and no rule depends on it" (R130) -/
  | undecodable (why : DecodeError)
  deriving DecidableEq, Repr

/-- Every piece of the block's state at its reset value (R48, R400); the parameters and the
environment's stimuli are kept, and the response port shows nothing. -/
def State.resetKeeping (cfg : Config) (inputs : List Stimulus) : State where
  cfg := cfg
  localAddr := cfg.localAddrReset
  localAddr2 := cfg.localAddr2Reset
  tagctr := cfg.tagReset
  pend := ⟨false, .single, 0⟩
  cst := .idle
  accExpected := none
  accCollected := []
  esr := 0
  ob := []
  rb := []
  evq := []
  txq := []
  resp := none
  inputs := inputs

/-- The machine right after reset, with the default parameters of R8 and no stimulus yet. -/
def State.reset : State := State.resetKeeping Config.default []

end Sys2Proof.Machine
end

