-- ==== Sys2Proof/Machine/Flags.lean ====
section
/-! DEFINITION. The block's one-bit quantities (spec/10_state.md R36, R37) and the codes under which a
host sees the state (R33, R131, R331). The block has no condition codes: only RAISE sets an `ESR` bit. -/

namespace Sys2Proof.Machine
open Sys2Proof

/-- `1 << (kind - 1)`, the `ESR` bit of a kind (R36, R365). -/
def esrBit (k : ErrKind) : Byte := 1#8 <<< ((kindCode k).toNat - 1)

/-- `ESR | (1 << (kind - 1))`, R365. -/
def esrWith (esr : Byte) (k : ErrKind) : Byte := esr ||| esrBit k

/-- The CST codes of R33. -/
def cstCode : Cst → Nat
  | .idle => 0
  | .awaitingFirst => 1
  | .accumulating => 2
  | .complete => 3
  | .failed => 4

/-- The event codes of R131. -/
def eventCode : Event → Nat
  | .outer _ _ _ _ => 1
  | .resultSingle _ => 2
  | .resultMulti _ => 3
  | .error _ => 4
  | .aborted _ => 5

/-- `(PEND.valid << 16) | (PEND.mode << 15) | PEND.tag`, register 3 of R331. -/
def pendWord (p : Pend) : Nat := ((if p.valid then 1 else 0) <<< 16) ||| (modeCode p.mode <<< 15) ||| p.tag.toNat

/-- Register 5 of R331: `0x20000 | e`, or 0 when nothing is expected. -/
def expectedWord (e : Option U17) : Nat :=
  match e with
  | some e => 0x20000 ||| e.toNat
  | none => 0

/-- The level signal `ev_avail` of spec/60_exceptions.md R370. -/
def evAvail (s : State) : Bool := !s.evq.isEmpty

end Sys2Proof.Machine
end

