-- ==== Sys2Proof/Machine/Ops.lean ====
section
/-! DEFINITION. The named operations over the state: the reassembly table, the queues, the end of a wait,
and RAISE, which is this hardware's taking of an exception (spec/60_exceptions.md R365). There is no
return from one: "There is no return operation" (R376). -/

namespace Sys2Proof.Machine
open Sys2Proof

/-! ## The reassembly table RB (spec/10_state.md R30) -/

/-- The place of a key in the table's canonical order; the order of the list means nothing to the block
(notes/assumptions/12.md). -/
def addrKey (a : Addr) : Nat :=
  ((((a.b0.toNat * 256 + a.b1.toNat) * 256 + a.b2.toNat) * 256 + a.b3.toNat) * 256 + a.b4.toNat) * 256
    + a.b5.toNat

/-- `RB[a]`, `[]` when there is no entry (R12, R30). -/
def rbGet : List (Addr × List Byte) → Addr → List Byte
  | [], _ => []
  | (k, buf) :: rest, a => if k = a then buf else rbGet rest a

/-- The table without an entry for `a`. -/
def rbErase : List (Addr × List Byte) → Addr → List (Addr × List Byte)
  | [], _ => []
  | (k, buf) :: rest, a => if k = a then rest else (k, buf) :: rbErase rest a

/-- The table with `buf` at key `a`, at its place in the order. -/
def rbInsert : List (Addr × List Byte) → Addr → List Byte → List (Addr × List Byte)
  | [], a, buf => [(a, buf)]
  | (k, old) :: rest, a, buf =>
    if k = a then (a, buf) :: rest
    else if addrKey a < addrKey k then (a, buf) :: (k, old) :: rest
    else (k, old) :: rbInsert rest a buf

/-- `RB[a] <- buf`: an entry exists exactly when its buffer is not empty (R30). -/
def rbSet (rb : List (Addr × List Byte)) (a : Addr) (buf : List Byte) : List (Addr × List Byte) :=
  match buf with
  | [] => rbErase rb a
  | _ :: _ => rbInsert rb a buf

/-- The canonical form of the table: keys strictly rising, no empty buffer. -/
def rbWf : List (Addr × List Byte) → Bool
  | [] => true
  | (_, buf) :: [] => !buf.isEmpty
  | (k, buf) :: (k', buf') :: rest =>
    !buf.isEmpty && decide (addrKey k < addrKey k') && rbWf ((k', buf') :: rest)

/-- `RB[a] <- buf` on the state. -/
def setRb (a : Addr) (buf : List Byte) (s : State) : State := { s with rb := rbSet s.rb a buf }

/-! ## Queues and the response port -/

/-- `emit EV_x(...)`: append one event to EVQ (R13, R40). -/
def emit (ev : Event) (s : State) : State := { s with evq := s.evq ++ [ev] }

/-- `tx(bytes)`: append bytes to TXQ (R13, R41). -/
def transmit (bs : List Byte) (s : State) : State := { s with txq := s.txq ++ bs }

/-- A command returns its response (R42). -/
def respond (r : Response) (s : State) : State := { s with resp := some r }

/-- `OB <- buf`. -/
def setOb (buf : List Byte) (s : State) : State := { s with ob := buf }

/-! ## The wait (spec/45_correlation.md R270, R273) -/

/-- `ACC <- (expected, collected)`. -/
def setAcc (expected : Option U17) (collected : List InnerMessage) (s : State) : State :=
  { s with accExpected := expected, accCollected := collected }

/-- `PEND.valid <- 0; CST <- c`: clearing a request clears `valid` only (R32). -/
def closeWait (c : Cst) (s : State) : State := { s with pend := { s.pend with valid := false }, cst := c }

/-- `PEND <- (1, mode, tag); CST <- AwaitingFirst; ACC <- (none, [])`: the creation of a pending request
(R326, R328). -/
def openWait (mode : Mode) (tag : U15) (s : State) : State :=
  { s with pend := ⟨true, mode, tag⟩, cst := .awaitingFirst, accExpected := none, accCollected := [] }

/-- `ESR <- ESR | (1 << (kind - 1))`. -/
def markEsr (k : ErrKind) (s : State) : State := { s with esr := esrWith s.esr k }

/-- RAISE, R365: the event, the sticky bit, and, if a request is pending, the end of its wait. -/
def raise (e : Err) (s : State) : State :=
  let s := markEsr (causeKind e.cause) (emit (.error e) s)
  if s.pend.valid then setAcc none [] (closeWait .failed s) else s

/-! ## Reset (spec/70_reset_and_hazards.md R400) -/

/-- Reset, by hardware or by command: "do the same thing, in one atomic step". It does not reach outside
the block (R401): the environment's stimuli stay. -/
def resetBlock (s : State) : State := State.resetKeeping s.cfg s.inputs

end Sys2Proof.Machine
end

