-- ==== Sys2Proof/Machine/Outer.lean ====
section
/-! DEFINITION. Unit U3, the outer frame parser and builder: the pure functions of
spec/42_outer_frame.md over the layout of spec/30_encoding.md R100. -/

namespace Sys2Proof.Machine
open Sys2Proof

/-- What OUTER_PARSE returns: `(len, from, to, type)`. -/
structure OuterHeader where
  len : Byte
  src : Addr
  dst : Addr
  typ : U16
  deriving DecidableEq, Repr

/-- OUTER_PARSE, R181: the five tests in their order. -/
def outerParse (buf : List Byte) : Result OuterHeader :=
  if buf.length < outerHlen then .err (errOf .outShort buf.length)
  else if byteAt buf 0 ≠ flag then .err (errOf .outStart (byteAt buf 0).toNat)
  else if outerMax < (byteAt buf 1).toNat ∨ byteAt buf 2 ≠ 0 then .err (errOf .outLen (byteAt buf 1).toNat)
  else if byteAt buf 3 ≠ byteAt buf 0 ^^^ byteAt buf 1 ^^^ byteAt buf 2 then
    .err (errOf .outCksum (byteAt buf 3).toNat)
  else if (byteAt buf 1).toNat < outerHlen then .err (errOf .outLenSmall (byteAt buf 1).toNat)
  else .ok ⟨byteAt buf 1, addrAt buf 4, addrAt buf 10, read16 buf 16⟩

/-- The bytes of an outer frame in the layout of R100, with the length byte `n`. -/
def outerBytes (n : Nat) (src dst : Addr) (typ : U16) (payload : List Byte) : List Byte :=
  [flag, BitVec.ofNat 8 n, 0x00, flag ^^^ BitVec.ofNat 8 n] ++ src.bytes ++ dst.bytes ++ le16 typ ++ payload

/-- The bytes of the outer frame with these fields, R100. -/
def outerUnit (src dst : Addr) (typ : U16) (payload : List Byte) : List Byte :=
  outerBytes (outerHlen + payload.length) src dst typ payload

/-- OUTER_BUILD, R183. -/
def outerBuild (src dst : Addr) (typ : U16) (payload : List Byte) : Result (List Byte) :=
  if outerMax < outerHlen + payload.length then .err (errOf .outTooLong (outerHlen + payload.length))
  else .ok (outerUnit src dst typ payload)

/-- OUTER_FILTER, R185, with the local link address as an argument. -/
def outerFilter (localAddr dst : Addr) : Bool := dst == localAddr || dst == bcast || dst == zeroAddr

end Sys2Proof.Machine
end

