-- ==== Sys2Proof/Machine/Crc.lean ====
section
/-! DEFINITION. Unit U2, the CRC-16 generator and checker: the pure functions of spec/41_crc16.md. -/

namespace Sys2Proof.Machine
open Sys2Proof

/-- One conditional shift of R161. -/
def crcShift (c : U16) : U16 := if c.getLsbD 0 then (c >>> 1) ^^^ 0x8408#16 else c >>> 1

/-- One byte of R161: it enters the low 8 bits, then eight conditional shifts. -/
def crcByte (c : U16) (b : Byte) : U16 := Nat.repeat crcShift 8 (c ^^^ b.setWidth 16)

/-- CRC16, R161: initial value `0xFFFF`, final complement. -/
def crc16 (data : List Byte) : U16 := data.foldl crcByte 0xFFFF#16 ^^^ 0xFFFF#16

/-- CRC_APPEND, R163: the low byte of the CRC first. -/
def crcAppend (data : List Byte) : List Byte := data ++ le16 (crc16 data)

/-- CRC_CHECK, R164. -/
def crcCheck (frame : List Byte) : Result Unit :=
  if frame.length < 2 then .err (errOf .pppShort 0)
  else if crc16 (frame.take (frame.length - 2)) ≠ read16 frame (frame.length - 2) then .err (errOf .pppCrc 0)
  else .ok ()

end Sys2Proof.Machine
end

