-- ==== Sys2Proof/Machine/Escape.lean ====
section
/-! DEFINITION. Unit U1, the byte-stuffing codec: the pure functions of spec/40_escape_codec.md. -/

namespace Sys2Proof.Machine
open Sys2Proof

/-- ESC_ENC, R141: one left-to-right pass. -/
def escEnc : List Byte → List Byte
  | [] => []
  | b :: rest => if reserved b then esc :: (b ^^^ escXor) :: escEnc rest else b :: escEnc rest

/-- STUFF, R142: one flag before and one after. -/
def stuff (frame : List Byte) : List Byte := flag :: (escEnc frame ++ [flag])

/-- ESC_DEC, R143: one left-to-right pass; an unconsumed escape at the end is TRUNC_ESC. -/
def escDec : List Byte → Result (List Byte)
  | [] => .ok []
  | [b] => if b = esc then .err (errOf .truncEsc 0) else .ok [b]
  | b :: v :: rest =>
    if b = esc then mapOk (List.cons (v ^^^ escXor)) (escDec rest)
    else mapOk (List.cons b) (escDec (v :: rest))

/-- DESTUFF, R144: the opening flag, the closing flag, no flag between, then ESC_DEC. -/
def destuff (raw : List Byte) : Result (List Byte) :=
  match raw with
  | [] => .err (errOf .noOpenFlag 0)
  | b :: rest =>
    if b ≠ flag then .err (errOf .noOpenFlag 0)
    else if rest.getLast? ≠ some flag then .err (errOf .badTerm 0)
    else if flag ∈ rest.dropLast then .err (errOf .badTerm 0)
    else escDec rest.dropLast

end Sys2Proof.Machine
end

