-- ==== Sys2Proof/Machine/Ppp.lean ====
section
/-! DEFINITION. Unit U4, the PPP codec: the pure functions of spec/43_ppp_engine.md over the layout of
spec/30_encoding.md R105. -/

namespace Sys2Proof.Machine
open Sys2Proof

/-- The record PppFrame of R210: protocol and body. -/
structure PppFrame where
  protocol : U16
  body : List Byte
  deriving DecidableEq, Repr

/-- The checks of R212 on a de-stuffed frame `F`: length, marker, FCS, in that order. -/
def pppOpen (f : List Byte) : Result PppFrame :=
  if f.length < 6 then .err (errOf .pppShort f.length)
  else if byteAt f 0 ≠ 0xFF ∨ byteAt f 1 ≠ 0x03 then .err (errOf .badMarker (memRead f 0 2))
  else if crc16 (f.take (f.length - 2)) ≠ read16 f (f.length - 2) then .err (errOf .pppCrc 0)
  else .ok ⟨read16 f 2, bytesAt f 4 (f.length - 6)⟩

/-- PPP_EXTRACT, R212. -/
def pppExtract (raw : List Byte) : Result PppFrame := andThen (destuff raw) pppOpen

/-- The de-stuffed frame of R105: marker, protocol, body, FCS. -/
def pppUnit (protocol : U16) (body : List Byte) : List Byte :=
  crcAppend (pppMarker ++ le16 protocol ++ body)

/-- PPP_BUILD, R214. -/
def pppBuild (protocol : U16) (body : List Byte) : List Byte := stuff (pppUnit protocol body)

end Sys2Proof.Machine
end

