-- ==== Sys2Proof/Machine/Receive.lean ====
section
/-! DEFINITION. The receive path: RX_BYTE and its sub-steps, last first, and their meanings as
instructions. The sub-steps are not separately invocable (spec/00_scope.md R7): `decode` gives none of
them, and a meaning is the sub-step run on the state with the operands of its rule
(notes/assumptions/8.md). -/

namespace Sys2Proof.Machine
open Sys2Proof

/-! ## ACC_STEP (spec/46_accumulator.md R302) -/

/-- The last lines of R302, for a message that has just been collected. -/
def accFinish (m : InnerMessage) (e : U17) (s : State) : State :=
  if m.pktcount = 0 then
    if s.accCollected.length ≠ e.toNat then raise (errOf .accCount 0) s
    else setAcc none [] (closeWait .complete (emit (.resultMulti s.accCollected) s))
  else s

/-- ACC_STEP, R302. The order test `pktcount ≠ e - n - 1` is written without subtraction
(notes/assumptions/11.md). -/
def accStep (m : InnerMessage) (s : State) : State :=
  match s.accExpected with
  | none =>
    if !m.first then raise (errOf .missingFirst m.pktcount.toNat) s
    else if exceeds (m.pktcount.toNat + 1) s.cfg.accMaxPkts then
      raise (errOf .accCapacity m.pktcount.toNat) s
    else
      accFinish m (m.pktcount.setWidth 17 + 1)
        { setAcc (some (m.pktcount.setWidth 17 + 1)) [m] s with cst := .accumulating }
  | some e =>
    if m.pktcount.toNat + s.accCollected.length + 1 ≠ e.toNat then
      raise (errOf .outOfOrder m.pktcount.toNat) s
    else accFinish m e (setAcc (some e) (s.accCollected ++ [m]) s)

/-! ## DISPATCH (spec/45_correlation.md R276) -/

/-- Whether a message matches the pending request, R272. -/
def matchesPending (m : InnerMessage) (s : State) : Bool :=
  s.pend.valid && m.response && decide (m.tag = s.pend.tag.setWidth 16)

/-- DISPATCH, R276: match, then device error, then the mode's own rules (R277). -/
def dispatch (m : InnerMessage) (s : State) : State :=
  if !matchesPending m s then s
  else if m.error ≠ 0 then raise (errOf .device m.error.toNat) s
  else
    match s.pend.mode with
    | .single => closeWait .complete (emit (.resultSingle m) s)
    | .multi => accStep m s

/-! ## INNER_RX (spec/44_inner_message.md R247) -/

/-- INNER_RX, R247: protocol, length, address filter, dispatch. -/
def innerRx (protocol : U16) (body : List Byte) (s : State) : State :=
  if protocol ≠ s.cfg.smaProtocolId then raise (errOf .wrongProtocol protocol.toNat) s
  else
    match innerParse body with
    | .err e => raise e s
    | .ok m => if innerFilter s.localAddr2 s.cfg.bcast2 m.to2 then dispatch m s else s

/-! ## PPP_RX (spec/43_ppp_engine.md R217) -/

/-- What R217 does with an extracted frame, or with the error of its extraction. -/
def pppDeliver (r : Result PppFrame) (s : State) : State :=
  match r with
  | .err e => raise e s
  | .ok f => innerRx f.protocol f.body s

/-- One turn of R217's loop after the capacity test: the byte joins its source's buffer; a non-leading
flag ends the frame, and the entry is removed before any check. -/
def pppByte (src : Addr) (b : Byte) (s : State) : State :=
  let buf := append (rbGet s.rb src) b
  if b = flag ∧ 2 ≤ buf.length then pppDeliver (pppExtract buf) (setRb src [] s)
  else if exceeds buf.length s.cfg.pppBufMax then raise (errOf .pppBufOverflow 0) (setRb src [] s)
  else setRb src buf s

/-- Whether R217 finds no room for a new source. -/
def noRoomFor (src : Addr) (s : State) : Bool := (rbGet s.rb src).isEmpty && fills s.rb.length s.cfg.nSrc

/-- PPP_RX, R217. With no room for a new source the rest of the payload is dropped. -/
def pppRx (src : Addr) : List Byte → State → State
  | [], s => s
  | b :: rest, s =>
    if noRoomFor src s then raise (errOf .srcTableFull 0) s else pppRx src rest (pppByte src b s)

/-! ## OUTER_DELIVER and RX_BYTE (spec/42_outer_frame.md R193, R190) -/

/-- Whether an outer type is a PPP carrier (R103, R193). -/
def isCarrier (cfg : Config) (typ : U16) : Bool := typ == cfg.otypePpp || typ == cfg.otypePpp2

/-- OUTER_DELIVER, R193. -/
def outerDeliver (frame : List Byte) (s : State) : State :=
  let src := addrAt frame 4
  let dst := addrAt frame 10
  let typ := read16 frame 16
  let payload := frame.drop outerHlen
  if !outerFilter s.localAddr dst then s
  else if isCarrier s.cfg typ then pppRx src payload s
  else emit (.outer src dst typ payload) s

/-- The last lines of R190: a complete frame leaves `OB` and is delivered. -/
def rxComplete (s : State) : State :=
  if outerHlen ≤ s.ob.length ∧ s.ob.length = (byteAt s.ob 1).toNat then outerDeliver s.ob (setOb [] s) else s

/-- RX_BYTE, R190: the header is checked when its 18th byte arrives; a bad header is discarded. -/
def rxByte (b : Byte) (s : State) : State :=
  let s := setOb (append s.ob b) s
  if s.ob.length = outerHlen then
    match outerParse s.ob with
    | .err e => raise e (setOb [] s)
    | .ok _ => rxComplete s
  else rxComplete s

/-! ## The meanings -/

/-- The outcomes of a step of this machine. -/
abbrev Out := Host.Outcome State Fault Refusal

/-- RX_BYTE, R190. -/
def execRxByte (b : Byte) (s : State) : Out := .next (rxByte b s)

/-- OUTER_DELIVER, R193. -/
def execOuterDeliver (frame : List Byte) (s : State) : Out := .next (outerDeliver frame s)

/-- PPP_RX, R217. -/
def execPppRx (src : Addr) (payload : List Byte) (s : State) : Out := .next (pppRx src payload s)

/-- INNER_RX, R247. -/
def execInnerRx (protocol : U16) (body : List Byte) (s : State) : Out := .next (innerRx protocol body s)

/-- DISPATCH, R276. -/
def execDispatch (m : InnerMessage) (s : State) : Out := .next (dispatch m s)

/-- ACC_STEP, R302. -/
def execAccStep (m : InnerMessage) (s : State) : Out := .next (accStep m s)

/-- RAISE, R365. -/
def execRaise (e : Err) (s : State) : Out := .next (raise e s)

end Sys2Proof.Machine
end

