-- ==== Sys2Proof/Machine/Functions.lean ====
section
/-! DEFINITION. The fifteen pure functions as host commands (spec/47_host_commands.md R332): each
returns what its own rule says in the response and touches no state of the block. -/

namespace Sys2Proof.Machine
open Sys2Proof

/-- The response of a function whose value is a byte string. -/
def bytesResponse (r : Result (List Byte)) : Response := mapOk .bytes r

/-- A command that only returns a response. -/
def answer (r : Response) (s : State) : Out := .next (respond r s)

/-- ESC_ENC, R141. -/
def execEscEnc (data : List Byte) (s : State) : Out := answer (.ok (.bytes (escEnc data))) s

/-- ESC_DEC, R143. -/
def execEscDec (body : List Byte) (s : State) : Out := answer (bytesResponse (escDec body)) s

/-- STUFF, R142. -/
def execStuff (frame : List Byte) (s : State) : Out := answer (.ok (.bytes (stuff frame))) s

/-- DESTUFF, R144. -/
def execDestuff (raw : List Byte) (s : State) : Out := answer (bytesResponse (destuff raw)) s

/-- CRC16, R161. -/
def execCrc16 (data : List Byte) (s : State) : Out := answer (.ok (.u16 (crc16 data))) s

/-- CRC_APPEND, R163. -/
def execCrcAppend (data : List Byte) (s : State) : Out := answer (.ok (.bytes (crcAppend data))) s

/-- CRC_CHECK, R164. -/
def execCrcCheck (frame : List Byte) (s : State) : Out :=
  answer (mapOk (fun _ => .none) (crcCheck frame)) s

/-- OUTER_PARSE, R181. -/
def execOuterParse (buf : List Byte) (s : State) : Out :=
  answer (mapOk (fun h => .outerHeader h.len h.src h.dst h.typ) (outerParse buf)) s

/-- OUTER_BUILD, R183. -/
def execOuterBuild (src dst : Addr) (typ : U16) (payload : List Byte) (s : State) : Out :=
  answer (bytesResponse (outerBuild src dst typ payload)) s

/-- OUTER_FILTER, R185. -/
def execOuterFilter (dst : Addr) (s : State) : Out := answer (.ok (.bit (outerFilter s.localAddr dst))) s

/-- PPP_EXTRACT, R212. -/
def execPppExtract (raw : List Byte) (s : State) : Out :=
  answer (mapOk (fun f => .pppFrame f.protocol f.body) (pppExtract raw)) s

/-- PPP_BUILD, R214. -/
def execPppBuild (protocol : U16) (body : List Byte) (s : State) : Out :=
  answer (.ok (.bytes (pppBuild protocol body))) s

/-- INNER_PARSE, R241. -/
def execInnerParse (body : List Byte) (s : State) : Out := answer (mapOk .message (innerParse body)) s

/-- INNER_BUILD, R243. -/
def execInnerBuild (m : InnerMessage) (s : State) : Out := answer (bytesResponse (innerBuild m)) s

/-- INNER_FILTER, R245. -/
def execInnerFilter (to2 : Addr) (s : State) : Out :=
  answer (.ok (.bit (innerFilter s.localAddr2 s.cfg.bcast2 to2))) s

end Sys2Proof.Machine
end

