-- ==== Sys2Proof/Machine/Commands.lean ====
section
/-! DEFINITION. The state-changing host commands, RDREG and illegal opcodes (spec/47_host_commands.md).
A command that returns `err` changes no state (R321): every meaning makes its checks first. -/

namespace Sys2Proof.Machine
open Sys2Proof

/-- `err(Busy, BUSY, PEND.tag)`, R321. -/
def busyError (s : State) : Err := errOf .busy s.pend.tag.toNat

/-- The five commands that a wait refuses (R321): Busy, or the effect `f`. -/
def unlessBusy (f : State → Out) (s : State) : Out :=
  if s.pend.valid then answer (.err (busyError s)) s else f s

/-- The transmit path of R327 and R328: INNER_BUILD, PPP_BUILD, OUTER_BUILD. -/
def buildFrame (protocol : U16) (m : InnerMessage) (src dst : Addr) (typ : U16) : Result (List Byte) :=
  andThen (innerBuild m) (fun body => outerBuild src dst typ (pppBuild protocol body))

/-- RESET, R322. -/
def execReset (s : State) : Out := answer (.ok .none) (resetBlock s)

/-- SETADDR, R323. -/
def execSetaddr (addr : Addr) (s : State) : Out :=
  unlessBusy (fun s => answer (.ok .none) { s with localAddr := addr }) s

/-- SETADDR2, R324. -/
def execSetaddr2 (addr : Addr) (s : State) : Out :=
  unlessBusy (fun s => answer (.ok .none) { s with localAddr2 := addr }) s

/-- The tag TAGALLOC hands out: `TAGCTR`, or the one after it when that is still pending (R325). -/
def allocTag (s : State) : U15 :=
  if s.pend.valid ∧ s.tagctr = s.pend.tag then s.tagctr + 1 else s.tagctr

/-- TAGALLOC, R325; 15-bit addition is addition modulo 0x8000. -/
def execTagalloc (s : State) : Out :=
  answer (.ok (.tag (allocTag s))) { s with tagctr := allocTag s + 1 }

/-- ARM, R326. -/
def execArm (tag : U16) (mode : Mode) (s : State) : Out :=
  unlessBusy (fun s =>
    if 0x7FFF < tag.toNat then answer (.err (errOf .tagRange 0)) s
    else answer (.ok .none) (openWait mode (tag.setWidth 15) s)) s

/-- SEND, R327, with the defaults of spec/43_ppp_engine.md R216. -/
def execSend (m : InnerMessage) (src dst : Option Addr) (typ : Option U16) (s : State) : Out :=
  match buildFrame s.cfg.smaProtocolId m (src.getD s.localAddr) (dst.getD bcast) (typ.getD s.cfg.otypePpp) with
  | .err e => answer (.err e) s
  | .ok frame => answer (.ok .none) (transmit frame s)

/-- REQUEST, R328: every check before any change; the wait is armed before the frame is in TXQ. -/
def execRequest (m : InnerMessage) (mode : Mode) (s : State) : Out :=
  unlessBusy (fun s =>
    match buildFrame s.cfg.smaProtocolId { m with tag := s.tagctr.setWidth 16 } s.localAddr bcast
        s.cfg.otypePpp with
    | .err e => answer (.err e) s
    | .ok frame =>
      answer (.ok (.tag s.tagctr))
        (transmit frame (openWait mode s.tagctr { s with tagctr := s.tagctr + 1 }))) s

/-- ABORT, R329. -/
def execAbort (s : State) : Out :=
  answer (.ok .none)
    (if s.pend.valid then setAcc none [] (closeWait .idle (emit (.aborted s.pend.tag) s)) else s)

/-- FLUSH, R330. -/
def execFlush (s : State) : Out := unlessBusy (fun s => answer (.ok .none) { s with ob := [], rb := [] }) s

/-- The value of a register of R331. -/
def readRegister (reg : Byte) (s : State) : Result Value :=
  match reg.toNat with
  | 0 => .ok (.addr s.localAddr)
  | 1 => .ok (.addr s.localAddr2)
  | 2 => .ok (.nat s.tagctr.toNat)
  | 3 => .ok (.nat (pendWord s.pend))
  | 4 => .ok (.nat (cstCode s.cst))
  | 5 => .ok (.nat (expectedWord s.accExpected))
  | 6 => .ok (.nat s.accCollected.length)
  | 7 => .ok (.nat s.esr.toNat)
  | 8 => .ok (.nat s.ob.length)
  | 9 => .ok (.nat s.rb.length)
  | n => .err (errOf .badReg n)

/-- RDREG, R331. -/
def execRdreg (reg : Byte) (s : State) : Out := answer (readRegister reg s) s

/-- An opcode that is not assigned, R333: the opcode alone decides, before any operand (R372). -/
def execIllegal (word : UnassignedWord) (s : State) : Out :=
  answer (.err (errOf .badOpcode word.opcode.toNat)) s

end Sys2Proof.Machine
end

