-- ==== Sys2Proof/WellFormed.lean ====
section
/-! DEFINITION. Which instructions are well formed: what the operands of each row may be
(spec/opcode_table.json and the rule of each row). A command's typed operands are all legal; what a
command refuses, it refuses in its response. -/

namespace Sys2Proof
open Sys2Proof.Machine

/-- The record of R240: `extra` a multiple of 4 and at most 984 bytes, a 15-bit tag, bit 0 of the type
clear. -/
def InnerMessage.wf (m : InnerMessage) : Bool :=
  decide (m.extra.length % 4 = 0) && decide (m.extra.length ≤ 984) && decide (m.tag.toNat ≤ 0x7FFF)
    && !m.msgType.getLsbD 0

/-- The 25 assigned opcodes of spec/30_encoding.md R130. -/
def assignedOpcodes : List Byte :=
  [0x01, 0x02, 0x03, 0x04, 0x08, 0x09, 0x0A, 0x10, 0x11, 0x12, 0x18, 0x19, 0x20, 0x21, 0x22,
   0x40, 0x41, 0x42, 0x43, 0x44, 0x45, 0x46, 0x47, 0x48, 0x49]

/-- The greatest payload of an outer frame, R65. -/
def maxPayload : Nat := 94

/-- Whether a byte string is a complete outer frame whose header passes OUTER_PARSE (R193). -/
def isOuterFrame (frame : List Byte) : Bool :=
  match outerParse frame with
  | .ok h => decide (h.len.toNat = frame.length)
  | .err _ => false

/-- Well-formedness of an instruction. -/
def Instr.wf (i : Instr) : Bool :=
  match i with
  | .escEnc _ => true
  | .escDec _ => true
  | .stuff _ => true
  | .destuff _ => true
  | .crc16 _ => true
  | .crcAppend _ => true
  | .crcCheck _ => true
  | .outerParse _ => true
  | .outerBuild _ _ _ _ => true
  | .outerFilter _ => true
  | .pppExtract _ => true
  | .pppBuild _ _ => true
  | .innerParse _ => true
  | .innerBuild _ => true
  | .innerFilter _ => true
  | .reset => true
  | .setaddr _ => true
  | .setaddr2 _ => true
  | .tagalloc => true
  | .arm _ _ => true
  | .send _ _ _ _ => true
  | .request _ _ => true
  | .abort => true
  | .flush => true
  | .rdreg _ => true
  | .illegal word => !assignedOpcodes.contains word.opcode
  | .rxByte _ => true
  | .outerDeliver frame => isOuterFrame frame
  | .pppRx _ payload => decide (payload.length ≤ maxPayload)
  | .innerRx _ _ => true
  | .dispatch msg => msg.wf
  | .accStep msg => msg.wf && msg.response && decide (msg.error = 0)
  | .raise e => raisable (causeKind e.cause)
  | .fmtEscapePair _ v => decide (v ≠ flag)
  | .fmtFlag _ => true
  | .fmtOuterFrame _ _ _ payload => decide (payload.length ≤ maxPayload)
  | .fmtPppFrame _ _ _ => true
  | .fmtInnerMessage m => m.msg.wf

end Sys2Proof
end

