-- ==== Sys2Proof/Machine/Formats.lean ====
section
/-! DEFINITION. The five wire formats of spec/30_encoding.md as instructions. A unit of a format is a move of
the environment, not of the block: a station at the other end of the link sends the unit, and its bytes arrive
on the receive port, each one an RX_BYTE of its own (R15, R92). What no rule gives (which outer frames carry a
unit) is the model's own (DESIGN CHOICE, notes/assumptions/7.md). -/

namespace Sys2Proof.Machine
open Sys2Proof

/-- A stuffed stream cut into payloads of at most `maxPayload` bytes, all but the last full (R92: a frame "may be
cut at any byte boundary"); the first argument is fuel, and the length of the stream suffices. -/
def cut : Nat → List Byte → List (List Byte)
  | 0, _ => []
  | _ + 1, [] => []
  | fuel + 1, b :: rest => (b :: rest).take maxPayload :: cut fuel ((b :: rest).drop maxPayload)

/-- A stuffed stream of source `src` in outer frames of the carrier type `OTYPE_PPP` to everyone. -/
def carry (cfg : Config) (src : Addr) (stream : List Byte) : List Byte :=
  (cut stream.length stream).flatMap (outerUnit src bcast cfg.otypePpp)

/-- The bytes on the link that are a unit: format O as it is, format S in outer frames, format P stuffed
(R149), format I as the body of a PPP frame of the protocol `SMA_PROTOCOL_ID`. -/
def linkBytes (cfg : Config) (u : WireUnit) : List Byte :=
  match u with
  | .symbol src w => carry cfg src w
  | .outerFrame w => w
  | .pppFrame src w => carry cfg src (stuff w)
  | .innerMessage src w => carry cfg src (pppBuild cfg.smaProtocolId w)

/-- Bytes come in on the receive port, one stimulus each, before everything that is still to come. -/
def arrive (bytes : List Byte) (s : State) : State :=
  { s with inputs := bytes.map (fun b => Stimulus.word (.rxByte b)) ++ s.inputs }

/-- A station sends a unit: its bytes come in; the block does nothing until it takes the first of them. -/
def sendUnit (u : WireUnit) (s : State) : State := arrive (linkBytes s.cfg u) s

/-- FMT_ESCAPE_PAIR, R95. -/
def execFmtEscapePair (src : Addr) (v : Byte) (s : State) : Out := .next (sendUnit (.symbol src [esc, v]) s)

/-- FMT_FLAG, R95. -/
def execFmtFlag (src : Addr) (s : State) : Out := .next (sendUnit (.symbol src [flag]) s)

/-- FMT_OUTER_FRAME, R100. -/
def execFmtOuterFrame (src dst : Addr) (typ : U16) (payload : List Byte) (s : State) : Out :=
  .next (sendUnit (.outerFrame (outerUnit src dst typ payload)) s)

/-- FMT_PPP_FRAME, R105. -/
def execFmtPppFrame (src : Addr) (protocol : U16) (body : List Byte) (s : State) : Out :=
  .next (sendUnit (.pppFrame src (pppUnit protocol body)) s)

/-- FMT_INNER_MESSAGE, R110. -/
def execFmtInnerMessage (m : SentMessage) (s : State) : Out :=
  .next (sendUnit (.innerMessage m.src (innerUnit m.msg)) s)

end Sys2Proof.Machine
end

