-- ==== Sys2Proof/Machine/Dispatch.lean ====
section
/-! DEFINITION. The dispatch: one arm per constructor of `Instr`, each one call of its meaning. -/

namespace Sys2Proof.Machine
open Sys2Proof

def exec (i : Instr) (s : State) : Host.Outcome State Fault Refusal :=
  match i with
  | .escEnc data => Sys2Proof.Machine.execEscEnc data s
  | .escDec body => Sys2Proof.Machine.execEscDec body s
  | .stuff frame => Sys2Proof.Machine.execStuff frame s
  | .destuff raw => Sys2Proof.Machine.execDestuff raw s
  | .crc16 data => Sys2Proof.Machine.execCrc16 data s
  | .crcAppend data => Sys2Proof.Machine.execCrcAppend data s
  | .crcCheck frame => Sys2Proof.Machine.execCrcCheck frame s
  | .outerParse buf => Sys2Proof.Machine.execOuterParse buf s
  | .outerBuild src dst typ payload => Sys2Proof.Machine.execOuterBuild src dst typ payload s
  | .outerFilter dst => Sys2Proof.Machine.execOuterFilter dst s
  | .pppExtract raw => Sys2Proof.Machine.execPppExtract raw s
  | .pppBuild protocol body => Sys2Proof.Machine.execPppBuild protocol body s
  | .innerParse body => Sys2Proof.Machine.execInnerParse body s
  | .innerBuild msg => Sys2Proof.Machine.execInnerBuild msg s
  | .innerFilter to2 => Sys2Proof.Machine.execInnerFilter to2 s
  | .reset => Sys2Proof.Machine.execReset s
  | .setaddr addr => Sys2Proof.Machine.execSetaddr addr s
  | .setaddr2 addr => Sys2Proof.Machine.execSetaddr2 addr s
  | .tagalloc => Sys2Proof.Machine.execTagalloc s
  | .arm tag mode => Sys2Proof.Machine.execArm tag mode s
  | .send msg src dst typ => Sys2Proof.Machine.execSend msg src dst typ s
  | .request msg mode => Sys2Proof.Machine.execRequest msg mode s
  | .abort => Sys2Proof.Machine.execAbort s
  | .flush => Sys2Proof.Machine.execFlush s
  | .rdreg reg => Sys2Proof.Machine.execRdreg reg s
  | .illegal word => Sys2Proof.Machine.execIllegal word s
  | .rxByte b => Sys2Proof.Machine.execRxByte b s
  | .outerDeliver frame => Sys2Proof.Machine.execOuterDeliver frame s
  | .pppRx src payload => Sys2Proof.Machine.execPppRx src payload s
  | .innerRx protocol body => Sys2Proof.Machine.execInnerRx protocol body s
  | .dispatch msg => Sys2Proof.Machine.execDispatch msg s
  | .accStep msg => Sys2Proof.Machine.execAccStep msg s
  | .raise e => Sys2Proof.Machine.execRaise e s
  | .fmtEscapePair src v => Sys2Proof.Machine.execFmtEscapePair src v s
  | .fmtFlag src => Sys2Proof.Machine.execFmtFlag src s
  | .fmtOuterFrame src dst typ payload => Sys2Proof.Machine.execFmtOuterFrame src dst typ payload s
  | .fmtPppFrame src protocol body => Sys2Proof.Machine.execFmtPppFrame src protocol body s
  | .fmtInnerMessage msg => Sys2Proof.Machine.execFmtInnerMessage msg s

end Sys2Proof.Machine
end

