-- ==== Sys2Proof/Decode.lean ====
section
/-! DEFINITION. Decoding of what the environment presents, total and rejecting by name, and the encoder. The opcodes are
those of spec/30_encoding.md R130; the packing of a command's operands is the model's own
(notes/assumptions/5.md); formats S, O, P and I are R95, R100, R105 and R110. -/

namespace Sys2Proof
open Sys2Proof.Machine

/-! ## The command port -/

/-- `from, to, type, payload` of OUTER_BUILD; the payload is the rest of the word. -/
def decodeOuterBuild (bs : List Byte) : Except DecodeError Instr := do
  let (src, bs) ← takeAddr bs
  let (dst, bs) ← takeAddr bs
  let (typ, bs) ← takeU16 bs
  .ok (.outerBuild src dst typ bs)

/-- `protocol, body` of PPP_BUILD; the body is the rest of the word. -/
def decodePppBuild (bs : List Byte) : Except DecodeError Instr := do
  let (protocol, bs) ← takeU16 bs
  .ok (.pppBuild protocol bs)

/-- `tag, mode` of ARM. -/
def decodeArm (bs : List Byte) : Except DecodeError Instr := do
  let (tag, bs) ← takeU16 bs
  let mode ← atEnd (takeMode bs)
  .ok (.arm tag mode)

/-- `from, to, type` of SEND as far as the first byte says they are present, then `msg`, whose `extra` is the
rest of the word (DESIGN CHOICE, notes/assumptions/5.md: R327 writes `msg` first). -/
def decodeSend (bs : List Byte) : Except DecodeError Instr := do
  let (present, bs) ← takeByte bs
  if present &&& 0xF8 = 0 then
    let (src, bs) ← takeIf (present.getLsbD 0) takeAddr bs
    let (dst, bs) ← takeIf (present.getLsbD 1) takeAddr bs
    let (typ, bs) ← takeIf (present.getLsbD 2) takeU16 bs
    let msg ← takeMsg bs
    .ok (.send msg src dst typ)
  else .error .reservedSelector

/-- `mode, msg` of REQUEST. R328 writes `REQUEST(msg, mode)`: that the mode is packed before the message is
the model's own choice, since `extra` is the rest of the word (DESIGN CHOICE, notes/assumptions/5.md). -/
def decodeRequest (bs : List Byte) : Except DecodeError Instr := do
  let (mode, bs) ← takeMode bs
  let msg ← takeMsg bs
  .ok (.request msg mode)

/-- A command: opcode `op`, operand bytes `bs` (R130). An opcode that is not assigned is
ILLEGAL whatever follows it: R372 tests the opcode before the operands. -/
def decodeOpcode (op : Byte) (bs : List Byte) : Except DecodeError Instr :=
  if op = 0x01 then .ok (.escEnc bs)
  else if op = 0x02 then .ok (.escDec bs)
  else if op = 0x03 then .ok (.stuff bs)
  else if op = 0x04 then .ok (.destuff bs)
  else if op = 0x08 then .ok (.crc16 bs)
  else if op = 0x09 then .ok (.crcAppend bs)
  else if op = 0x0A then .ok (.crcCheck bs)
  else if op = 0x10 then .ok (.outerParse bs)
  else if op = 0x11 then decodeOuterBuild bs
  else if op = 0x12 then (atEnd (takeAddr bs)).map .outerFilter
  else if op = 0x18 then .ok (.pppExtract bs)
  else if op = 0x19 then decodePppBuild bs
  else if op = 0x20 then .ok (.innerParse bs)
  else if op = 0x21 then (takeMsg bs).map .innerBuild
  else if op = 0x22 then (atEnd (takeAddr bs)).map .innerFilter
  else if op = 0x40 then noOperands .reset bs
  else if op = 0x41 then (atEnd (takeAddr bs)).map .setaddr
  else if op = 0x42 then (atEnd (takeAddr bs)).map .setaddr2
  else if op = 0x43 then noOperands .tagalloc bs
  else if op = 0x44 then decodeArm bs
  else if op = 0x45 then decodeSend bs
  else if op = 0x46 then decodeRequest bs
  else if op = 0x47 then noOperands .abort bs
  else if op = 0x48 then noOperands .flush bs
  else if op = 0x49 then (atEnd (takeByte bs)).map .rdreg
  else .ok (.illegal ⟨op, bs⟩)

/-- A word of the command port. -/
def decodeCommand (w : List Byte) : Except DecodeError Instr :=
  match w with
  | [] => .error .emptyWord
  | op :: bs => decodeOpcode op bs

/-! ## The wire formats -/

/-- A symbol of format S in the stuffed stream of a source (R95). -/
def decodeSymbol (src : Addr) (w : List Byte) : Except DecodeError Instr :=
  match w with
  | [b] => if b = flag then .ok (.fmtFlag src) else .error .notASymbol
  | [b, v] => if b = esc ∧ v ≠ flag then .ok (.fmtEscapePair src v) else .error .notASymbol
  | _ => .error .notASymbol

/-- A unit of format O (R100): a header that passes OUTER_PARSE, with `len` the length of the unit. -/
def decodeOuterFrame (w : List Byte) : Except DecodeError Instr :=
  match outerParse w with
  | .ok h =>
    if h.len.toNat = w.length then .ok (.fmtOuterFrame h.src h.dst h.typ (w.drop outerHlen))
    else .error (.notAUnit (errOf .outLen h.len.toNat))
  | .err e => .error (.notAUnit e)

/-- A de-stuffed unit of format P (R105). -/
def decodePppFrame (src : Addr) (w : List Byte) : Except DecodeError Instr :=
  match pppOpen w with
  | .ok f => .ok (.fmtPppFrame src f.protocol f.body)
  | .err e => .error (.notAUnit e)

/-- A unit of format I from a source (R110). -/
def decodeInnerMessage (src : Addr) (w : List Byte) : Except DecodeError Instr :=
  match innerParse w with
  | .ok m => .ok (.fmtInnerMessage ⟨src, m⟩)
  | .err e => .error (.notAUnit e)

/-- The format that a unit on the link is. -/
def decodeUnit (u : WireUnit) : Except DecodeError Instr :=
  match u with
  | .symbol src w => decodeSymbol src w
  | .outerFrame w => decodeOuterFrame w
  | .pppFrame src w => decodePppFrame src w
  | .innerMessage src w => decodeInnerMessage src w

/-- The instruction that a presented word stands for. No word stands for one of the six internal sub-steps,
which are "not separately invocable" (spec/00_scope.md R7). -/
def decode (p : Presented) : Except DecodeError Instr :=
  match p with
  | .command w => decodeCommand w
  | .rxByte b => .ok (.rxByte b)
  | .unit u => decodeUnit u

/-! ## The encoder -/

/-- The bytes of an operand that may be absent. -/
def packIf {α : Type} (pack : α → List Byte) (v : Option α) : List Byte :=
  match v with
  | some x => pack x
  | none => []

/-- The word of an instruction, `none` for the six internal sub-steps, which have no encoding
(spec/opcode_table.json: "none: internal step"). -/
def encode (i : Instr) : Option Presented :=
  match i with
  | .escEnc data => some (.command (0x01 :: data))
  | .escDec body => some (.command (0x02 :: body))
  | .stuff frame => some (.command (0x03 :: frame))
  | .destuff raw => some (.command (0x04 :: raw))
  | .crc16 data => some (.command (0x08 :: data))
  | .crcAppend data => some (.command (0x09 :: data))
  | .crcCheck frame => some (.command (0x0A :: frame))
  | .outerParse buf => some (.command (0x10 :: buf))
  | .outerBuild src dst typ payload => some (.command (0x11 :: (src.bytes ++ dst.bytes ++ le16 typ ++ payload)))
  | .outerFilter dst => some (.command (0x12 :: dst.bytes))
  | .pppExtract raw => some (.command (0x18 :: raw))
  | .pppBuild protocol body => some (.command (0x19 :: (le16 protocol ++ body)))
  | .innerParse body => some (.command (0x20 :: body))
  | .innerBuild msg => some (.command (0x21 :: packMsg msg))
  | .innerFilter to2 => some (.command (0x22 :: to2.bytes))
  | .reset => some (.command [0x40])
  | .setaddr addr => some (.command (0x41 :: addr.bytes))
  | .setaddr2 addr => some (.command (0x42 :: addr.bytes))
  | .tagalloc => some (.command [0x43])
  | .arm tag mode => some (.command (0x44 :: (le16 tag ++ packMode mode)))
  | .send msg src dst typ =>
    some (.command (0x45 :: packPresent src.isSome dst.isSome typ.isSome
      :: (packIf Addr.bytes src ++ packIf Addr.bytes dst ++ packIf le16 typ ++ packMsg msg)))
  | .request msg mode => some (.command (0x46 :: (packMode mode ++ packMsg msg)))
  | .abort => some (.command [0x47])
  | .flush => some (.command [0x48])
  | .rdreg reg => some (.command [0x49, reg])
  | .illegal word => some (.command (word.opcode :: word.operands))
  | .rxByte b => some (.rxByte b)
  | .outerDeliver _ => none
  | .pppRx _ _ => none
  | .innerRx _ _ => none
  | .dispatch _ => none
  | .accStep _ => none
  | .raise _ => none
  | .fmtEscapePair src v => some (.unit (.symbol src [esc, v]))
  | .fmtFlag src => some (.unit (.symbol src [flag]))
  | .fmtOuterFrame src dst typ payload => some (.unit (.outerFrame (outerUnit src dst typ payload)))
  | .fmtPppFrame src protocol body => some (.unit (.pppFrame src (pppUnit protocol body)))
  | .fmtInnerMessage m => some (.unit (.innerMessage m.src (innerUnit m.msg)))

/-! ## Words as the opcode table numbers them -/

/-- How many bytes of fixed operands a command has; its word is never shorter. -/
def fixedOperandBytes (op : Byte) : Nat :=
  if op = 0x11 then 14
  else if op = 0x12 ∨ op = 0x22 ∨ op = 0x41 ∨ op = 0x42 then 6
  else if op = 0x19 then 2
  else if op = 0x21 then 36
  else if op = 0x44 then 3
  else if op = 0x45 ∨ op = 0x46 then 37
  else if op = 0x49 then 1
  else 0

/-- The word of a row's bits `w` (notes/assumptions/9.md). A row of 16 bits is FMT_ESCAPE_PAIR,
whose pattern `01111101 vvvvvvvv` the table reads as one number with the byte first on the wire in bits
15..8. Of the rows of 8 bits, `0x7E` is FMT_FLAG; the others are commands, and every operand byte that
the row gives no bits is 0. -/
def tableWord (nbits w : Nat) : Presented :=
  if nbits = 16 then .unit (.symbol zeroAddr [BitVec.ofNat 8 (w / 256), BitVec.ofNat 8 w])
  else if BitVec.ofNat 8 w = flag then .unit (.symbol zeroAddr [flag])
  else .command (BitVec.ofNat 8 w :: List.replicate (fixedOperandBytes (BitVec.ofNat 8 w)) 0)

/-- The instruction the decoder reads from a row's bits. -/
def decodeTableWord (nbits w : Nat) : Option Instr :=
  match decode (tableWord nbits w) with
  | .ok i => some i
  | .error _ => none

end Sys2Proof
end

