-- ==== Sys2Proof/Machine/Fetch.lean ====
section
/-! DEFINITION. The stimuli of the environment: presenting a word, and what a stimulus that is no
instruction does (spec/00_scope.md R15, spec/10_state.md R40, R41, spec/70_reset_and_hazards.md R400). -/

namespace Sys2Proof.Machine
open Sys2Proof

/-- The environment presents `p` before everything it still has to present. -/
def present (p : Presented) (s : State) : State := { s with inputs := .word p :: s.inputs }

/-- The stimulus being taken leaves the list. -/
def setInputs (rest : List Stimulus) (s : State) : State := { s with inputs := rest }

/-- The host removes `n` events from the head of EVQ (R40). -/
def takeEvents (n : Nat) (s : State) : State := { s with evq := s.evq.drop n }

/-- The environment consumes `n` bytes of TXQ (R41). -/
def takeTx (n : Nat) (s : State) : State := { s with txq := s.txq.drop n }

/-- What a word does that stands for no instruction. Bytes on the link that are no unit of their format come
in all the same, and the receive path checks them. A word of the command port that carries no opcode, or
whose bytes are no packing of its opcode's operands, is no command at all, and is refused
(notes/assumptions/6.md). -/
def undecoded (p : Presented) (why : DecodeError) (s : State) : Out :=
  match p with
  | .unit u => .next (sendUnit u s)
  | .command _ => .refused (.undecodable why)
  | .rxByte _ => .refused (.undecodable why)

end Sys2Proof.Machine
end

