-- ==== Sys2Proof/Machine/Step.lean ====
section
/-! DEFINITION. One step of the machine: the environment's next stimulus is taken whole (spec/00_scope.md
R15: every step is atomic, steps are totally ordered, the environment chooses). -/

namespace Sys2Proof.Machine
open Sys2Proof

/-- One step. With no stimulus the block "simply holds its state" (R386; notes/assumptions/3.md). -/
def step (s : State) : Host.Outcome State Fault Refusal :=
  match s.inputs with
  | [] => .next s
  | .word p :: rest =>
    match decode p with
    | .ok i => exec i (setInputs rest s)
    | .error why => undecoded p why (setInputs rest s)
  | .hardReset :: rest => .next (resetBlock (setInputs rest s))
  | .takeEvents n :: rest => .next (takeEvents n (setInputs rest s))
  | .takeTx n :: rest => .next (takeTx n (setInputs rest s))

/-- `s` with the instruction of a row's bits presented as the very next stimulus
(notes/assumptions/14.md). -/
def State.withFetchWord (s : State) (nbits w : Nat) : State := present (tableWord nbits w) s

end Sys2Proof.Machine
end

