-- ==== Sys2Proof/Safety.lean ====
section
/-! DEFINITION. What the spec says of the machine as a whole: the invariants of spec/10_state.md R26, R30,
R33, R34, R36 and the capacities of R20, and who writes which state (R20, column "written by"). -/

namespace Sys2Proof.Machine
open Sys2Proof

/-! ## Invariants -/

/-- Whether an operation succeeded. -/
def isOk {α : Type} (r : Result α) : Bool :=
  match r with
  | .ok _ => true
  | .err _ => false

/-- R26: `len(OB) <= 111`, and if `len(OB) >= 18` then the header has passed OUTER_PARSE and
`len(OB) < OB[1]`. -/
def obInv (s : State) : Bool :=
  decide (s.ob.length ≤ 111) &&
    (decide (s.ob.length < outerHlen) ||
      (isOk (outerParse (s.ob.take outerHlen)) && decide (s.ob.length < (byteAt s.ob 1).toNat)))

/-- R30 and the capacities of R20: the table is in its canonical form (no empty buffer, keys in order),
no buffer has a flag at an index other than 0, there are at most `N_SRC` entries and no buffer is longer
than `PPP_BUF_MAX`. -/
def rbInv (s : State) : Bool :=
  rbWf s.rb && s.rb.all (fun p => !p.2.tail.contains flag) && !exceeds s.rb.length s.cfg.nSrc
    && s.rb.all (fun p => !exceeds p.2.length s.cfg.pppBufMax)

/-- The i-th message (i from 0) has `pktcount = e - 1 - i`. -/
def countsDown : Nat → List InnerMessage → Bool
  | _, [] => true
  | e, m :: rest => decide (m.pktcount.toNat + 1 = e) && countsDown (e - 1) rest

/-- A message that belongs to the pending request (R272, R300): a parsed message with its tag, a
response, without a device error. -/
def belongsTo (tag : U15) (m : InnerMessage) : Bool :=
  m.wf && m.response && decide (m.tag = tag.setWidth 16) && decide (m.error = 0)

/-- R34 while `CST = Accumulating`, for `ACC.expected = some(e)`: `1 <= len(ACC.collected) < e`, the
counts run down from `e - 1`, `e` is within `ACC_MAX_PKTS` (R20), and every message belongs to the
request. -/
def accInv (s : State) (e : U17) : Bool :=
  decide (1 ≤ s.accCollected.length) && decide (s.accCollected.length < e.toNat)
    && countsDown e.toNat s.accCollected && !exceeds e.toNat s.cfg.accMaxPkts
    && s.accCollected.all (belongsTo s.pend.tag)

/-- R33 and R34: `PEND.valid = 1` exactly in `AwaitingFirst` and `Accumulating`, `Accumulating` only in
mode MULTI, and `ACC` as the state of the wait says. -/
def corrInv (s : State) : Bool :=
  match s.cst, s.accExpected with
  | .accumulating, some e => s.pend.valid && decide (s.pend.mode = .multi) && accInv s e
  | .accumulating, none => false
  | .awaitingFirst, none => s.pend.valid && s.accCollected.isEmpty
  | _, none => !s.pend.valid && s.accCollected.isEmpty
  | _, some _ => false

/-- R36: bits 4 and 7 of `ESR` are reserved and read 0. -/
def esrInv (s : State) : Bool := !s.esr.getLsbD 4 && !s.esr.getLsbD 7

/-- Every invariant of the block. -/
def inv (s : State) : Bool := obInv s && rbInv s && corrInv s && esrInv s

/-! ## Who writes what (R20) -/

/-- The instructions that issue a response: the 25 commands and an illegal opcode. -/
def isCommand (i : Instr) : Bool :=
  match i with
  | .rxByte _ | .outerDeliver _ | .pppRx _ _ | .innerRx _ _ | .dispatch _ | .accStep _ | .raise _
  | .fmtEscapePair _ _ | .fmtFlag _ | .fmtOuterFrame _ _ _ _ | .fmtPppFrame _ _ _ | .fmtInnerMessage _ => false
  | _ => true

/-- The units of the wire formats, which the environment sends and which touch nothing of the block. -/
def isUnit (i : Instr) : Bool :=
  match i with
  | .fmtEscapePair _ _ | .fmtFlag _ | .fmtOuterFrame _ _ _ _ | .fmtPppFrame _ _ _ | .fmtInnerMessage _ => true
  | _ => false

/-- The five commands that a wait refuses (R321). -/
def refusedInWait (i : Instr) : Bool :=
  match i with
  | .setaddr _ | .setaddr2 _ | .arm _ _ | .request _ _ | .flush => true
  | _ => false

/-- The receive path: RX_BYTE and its sub-steps. -/
def onReceivePath (i : Instr) : Bool := !isCommand i && !isUnit i

/-- The instructions that reach PPP_RX. -/
def reachesPppRx (i : Instr) : Bool :=
  match i with
  | .rxByte _ | .outerDeliver _ | .pppRx _ _ => true
  | _ => false

/-- The instruction that takes a byte into `OB`. -/
def takesRxBytes (i : Instr) : Bool :=
  match i with
  | .rxByte _ => true
  | _ => false

/-! ## Events -/

/-- An event that carries the result of a wait. -/
def isResult (ev : Event) : Bool :=
  match ev with
  | .resultSingle _ | .resultMulti _ => true
  | _ => false

/-- An error event. -/
def isError (ev : Event) : Bool :=
  match ev with
  | .error _ => true
  | _ => false

/-! ## Runs -/

/-- `k` steps one after the other, as far as none is refused. -/
def runFor : Nat → State → Host.Outcome State Fault Refusal
  | 0, s => .next s
  | k + 1, s =>
    match step s with
    | .next t => runFor k t
    | .fault r => .fault r
    | .refused r => .refused r

/-- A run of `k` steps is safe when no step stops it. -/
def runsSafely (k : Nat) (s : State) : Prop := ∃ t, runFor k s = .next t

end Sys2Proof.Machine
end

