-- ==== Sys2Proof/Certificates/Slice0/Obligations.lean ====
section
/-! DEFINITION. The statements for the provers, each `def Obligations.<Name> : Prop`, and the forms of
the spec's own they are written in (namespace `Sys2Proof.Spec`: the pseudocode or table of a rule,
written again without the meanings' shared operations, so that a statement says something a wrong meaning
would fail). A docstring names the rule; "the spec's decision D<n>" means that the spec marks the point as
its own choice (spec/92_eei_decisions.md). -/

namespace Sys2Proof.Spec
open Sys2Proof Sys2Proof.Machine

/-- A command that answers `r` and changes nothing of the block. -/
def answered (s : State) (r : Response) : Host.Outcome State Fault Refusal := .next { s with resp := some r }

/-- A command that answers `err(kind, sub, info)` and changes nothing of the block. -/
def failedWith (s : State) (c : Cause) (info : Nat) : Host.Outcome State Fault Refusal :=
  answered s (.err ⟨c, BitVec.ofNat 16 info⟩)

/-- Byte `i` of an integer, byte 0 the least significant (R10, R11). -/
def octet {n : Nat} (v : BitVec n) (i : Nat) : Byte := (v >>> (8 * i)).setWidth 8

/-- The u16 with low byte `lo` and high byte `hi`. -/
def word (lo hi : Byte) : U16 := hi ++ lo

/-- The u32 with bytes `b0` (least significant) to `b3`. -/
def word32 (b0 b1 b2 b3 : Byte) : U32 := b3 ++ b2 ++ b1 ++ b0

/-- What the encoder emits for one data byte (R95, R96, R141). -/
def escaped (b : Byte) : List Byte :=
  if b = 0x7E ∨ b = 0x7D ∨ b = 0x11 ∨ b = 0x13 then [0x7D, b ^^^ 0x20] else [b]

/-- The pseudocode of R143: index `i`, output so far, and fuel for the loop. -/
def escDecScan (body : List Byte) : Nat → Nat → List Byte → Response
  | 0, _, out => .ok (.bytes out)
  | fuel + 1, i, out =>
    match body[i]? with
    | none => .ok (.bytes out)
    | some b =>
      if b = 0x7D then
        match body[i + 1]? with
        | none => .err ⟨.truncEsc, 0⟩
        | some v => escDecScan body fuel (i + 2) (out ++ [v ^^^ 0x20])
      else escDecScan body fuel (i + 1) (out ++ [b])

/-- `T[i]` of R162: eight conditional shifts of R161. -/
def crcTable (i : U16) : U16 :=
  (List.range 8).foldl (fun (c : U16) _ => if c &&& 1 = 1 then (c >>> 1) ^^^ 0x8408 else c >>> 1) i

/-- CRC16 a byte at a time with the table, R162. -/
def tableCrc (data : List Byte) : U16 :=
  data.foldl (fun (c : U16) (b : Byte) => (c >>> 8) ^^^ crcTable ((c ^^^ b.setWidth 16) &&& 0xFF)) (0xFFFF : U16)
    ^^^ 0xFFFF

/-- The ESR bit of a kind, the last column of the table of R361. -/
def esrBitOf (k : ErrKind) : Byte :=
  match k with
  | .framing => 0x01
  | .crc => 0x02
  | .protocol => 0x04
  | .device => 0x08
  | .argument => 0x10
  | .internal => 0x20
  | .resource => 0x40
  | .busy => 0x80

/-- The table of R362, row by row: the kind of a cause, that kind's code in the table of R361, and the
sub-cause code. -/
def errorRow : Cause → ErrKind × Byte × Byte
  | .outShort => (.framing, 1, 1)
  | .outStart => (.framing, 1, 2)
  | .outLen => (.framing, 1, 3)
  | .outCksum => (.framing, 1, 4)
  | .outLenSmall => (.framing, 1, 5)
  | .noOpenFlag => (.framing, 1, 6)
  | .truncEsc => (.framing, 1, 7)
  | .pppShort => (.framing, 1, 8)
  | .badTerm => (.framing, 1, 9)
  | .pppCrc => (.crc, 2, 1)
  | .badMarker => (.protocol, 3, 1)
  | .wrongProtocol => (.protocol, 3, 2)
  | .innerShort => (.protocol, 3, 3)
  | .innerLen => (.protocol, 3, 4)
  | .missingFirst => (.protocol, 3, 5)
  | .outOfOrder => (.protocol, 3, 6)
  | .device => (.device, 4, 1)
  | .extraAlign => (.argument, 5, 1)
  | .innerTooLong => (.argument, 5, 2)
  | .tagRange => (.argument, 5, 3)
  | .typeBit0 => (.argument, 5, 4)
  | .outTooLong => (.argument, 5, 5)
  | .badOpcode => (.argument, 5, 6)
  | .badReg => (.argument, 5, 7)
  | .accCount => (.internal, 6, 1)
  | .srcTableFull => (.resource, 7, 1)
  | .pppBufOverflow => (.resource, 7, 2)
  | .accCapacity => (.resource, 7, 3)
  | .busy => (.busy, 8, 1)

/-- The ESR bit of an error, by the tables of R361 and R362. -/
def errorBit (e : Err) : Byte := esrBitOf (errorRow e.cause).1

/-- `ESR` after an event: an error event sets the bit of its kind (R36, R365). -/
def esrAfterEvent (esr : Byte) (ev : Event) : Byte :=
  match ev with
  | .error e => esr ||| errorBit e
  | _ => esr

/-- The state after RAISE (R365), every field written out. -/
def raised (e : Err) (s : State) : State :=
  if s.pend.valid then
    { s with evq := s.evq ++ [.error e], esr := s.esr ||| errorBit e,
             pend := ⟨false, s.pend.mode, s.pend.tag⟩, cst := .failed, accExpected := none, accCollected := [] }
  else { s with evq := s.evq ++ [.error e], esr := s.esr ||| errorBit e }

/-- `PPP_RX` of one extracted frame: what happens to the frame or to the error of its extraction (R217),
in the state whose buffer of `src` has been emptied. -/
def extracted (src : Addr) (raw : List Byte) (s : State) : State :=
  match pppExtract raw with
  | .err e => raised e { s with rb := rbSet s.rb src [] }
  | .ok f => innerRx f.protocol f.body { s with rb := rbSet s.rb src [] }

/-- The outer frame that SEND and REQUEST put into TXQ for a message (R327). -/
def sentFrame (s : State) (m : InnerMessage) (src dst : Addr) (typ : U16) : List Byte :=
  outerUnit src dst typ (pppBuild s.cfg.smaProtocolId (innerUnit m))

/-- Whether a message matches the pending request (R272). -/
def matching (m : InnerMessage) (s : State) : Prop :=
  s.pend.valid = true ∧ m.response = true ∧ m.tag.toNat = s.pend.tag.toNat

/-- Whether source `src` may have a byte appended: it has a buffer, or the table is not full (R217). -/
def hasRoom (src : Addr) (s : State) : Prop := rbGet s.rb src ≠ [] ∨ ∀ n, s.cfg.nSrc = some n → s.rb.length ≠ n

/-- Whether a buffer may hold `n` bytes (R217). -/
def fitsBuffer (n : Nat) (s : State) : Prop := ∀ c, s.cfg.pppBufMax = some c → n ≤ c

/-- The state with these bytes as the next to come in on the receive port. -/
def arriving (bytes : List Byte) (s : State) : State :=
  { s with inputs := bytes.map (fun b => .word (.rxByte b)) ++ s.inputs }

/-- The bytes of an outer frame in the layout of R100. -/
def frameBytes (src dst : Addr) (typ : U16) (payload : List Byte) : List Byte :=
  [0x7E, BitVec.ofNat 8 (18 + payload.length), 0x00, 0x7E ^^^ BitVec.ofNat 8 (18 + payload.length)]
    ++ src.bytes ++ dst.bytes ++ [octet typ 0, octet typ 1] ++ payload

/-- A piece of the stuffed stream of a source, in an outer frame of the carrier type to everyone. -/
def carrierFrame (src : Addr) (s : State) (payload : List Byte) : List Byte :=
  frameBytes src (Addr.fill 0xFF) s.cfg.otypePpp payload

/-- `parts` is a cut of a stuffed stream into payloads that an outer frame can hold (R65, R92). -/
def cutsInto (stream : List Byte) (parts : List (List Byte)) : Prop :=
  parts.flatten = stream ∧ ∀ part ∈ parts, part ≠ [] ∧ part.length ≤ 94

/-- Whether a frame of source `src` that is stuffed to `stream` comes in undisturbed: nothing of another outer
frame or of another frame of that source is waiting, and the capacities allow it (R26, R217). -/
def wayIsClear (src : Addr) (stream : List Byte) (s : State) : Prop :=
  s.ob = [] ∧ rbWf s.rb = true ∧ rbGet s.rb src = [] ∧ hasRoom src s ∧ fitsBuffer (stream.length - 1) s

end Sys2Proof.Spec

open Sys2Proof Sys2Proof.Machine Sys2Proof.Spec

/-! ## U1, the escape codec -/

/-- R140 and R141. The reserved values are exactly 7E, 7D, 11 and 13; ESC_ENC copies every other byte and
replaces these by an escape pair. Its output has no 7E, 11 or 13, and 7D only before one of 5E, 5D, 31, 33. -/
def Obligations.EscEncReplacesReservedBytes : Prop :=
  ∀ (data : List Byte) (s : State),
    (∀ b, reserved b = true ↔ b = 0x7E ∨ b = 0x7D ∨ b = 0x11 ∨ b = 0x13)
    ∧ exec (.escEnc data) s = answered s (.ok (.bytes (data.flatMap escaped)))
    ∧ 0x7E ∉ data.flatMap escaped ∧ 0x11 ∉ data.flatMap escaped ∧ 0x13 ∉ data.flatMap escaped
    ∧ ∀ (i : Nat), (data.flatMap escaped)[i]? = some 0x7D →
        ∃ v ∈ [(0x5E : Byte), 0x5D, 0x31, 0x33], (data.flatMap escaped)[i + 1]? = some v

/-- R142 (that there is one pair of flags is the spec's resolution C1 and its decision D5). STUFF puts exactly
one flag before and one after the escaped bytes, and no flag is between. That its opcode 0x03 is followed by
the frame as it is, is the model's packing (notes/assumptions/5.md). -/
def Obligations.StuffWrapsInOneFlagPair : Prop :=
  ∀ (frame : List Byte) (s : State),
    decode (.command (0x03 :: frame)) = .ok (.stuff frame)
    ∧ exec (.stuff frame) s = answered s (.ok (.bytes ([0x7E] ++ frame.flatMap escaped ++ [0x7E])))
    ∧ 0x7E ∉ frame.flatMap escaped

/-- R143 (the leniency is the spec's decision D6). ESC_DEC answers what the index scan of R143 answers. -/
def Obligations.EscDecIsTheIndexScan : Prop :=
  ∀ (body : List Byte) (s : State), exec (.escDec body) s = answered s (escDecScan body (body.length + 1) 0 [])

/-- R144 (the flag checks are the spec's decision D7). DESTUFF tests the opening flag, the closing flag,
flags strictly inside, and then un-stuffs what is between. -/
def Obligations.DestuffChecksFlagsThenDecodes : Prop :=
  ∀ (raw body : List Byte) (s : State),
    (raw.head? ≠ some 0x7E → exec (.destuff raw) s = failedWith s .noOpenFlag 0)
    ∧ (raw.head? = some 0x7E → (raw.length < 2 ∨ raw.getLast? ≠ some 0x7E) →
        exec (.destuff raw) s = failedWith s .badTerm 0)
    ∧ (0x7E ∈ body → exec (.destuff ([0x7E] ++ body ++ [0x7E])) s = failedWith s .badTerm 0)
    ∧ (0x7E ∉ body →
        exec (.destuff ([0x7E] ++ body ++ [0x7E])) s = answered s (escDecScan body (body.length + 1) 0 []))

/-- R145. For every byte string, DESTUFF undoes STUFF and ESC_DEC undoes ESC_ENC. -/
def Obligations.DestuffUndoesStuff : Prop :=
  ∀ (x : List Byte) (s : State),
    (∃ y, exec (.stuff x) s = answered s (.ok (.bytes y)) ∧ exec (.destuff y) s = answered s (.ok (.bytes x)))
    ∧ ∃ z, exec (.escEnc x) s = answered s (.ok (.bytes z)) ∧ exec (.escDec z) s = answered s (.ok (.bytes x))

/-! ## U2, the CRC -/

/-- R162, which the spec derives from R161: the bit-serial CRC16 is the table-driven one. -/
def Obligations.Crc16IsTheTableForm : Prop :=
  ∀ (data : List Byte) (s : State), exec (.crc16 data) s = answered s (.ok (.u16 (tableCrc data)))

/-- R165 (b), the exact form the spec marks as general knowledge: strings that differ in one byte only,
so in particular in one bit, have different CRCs. -/
def Obligations.OneChangedByteChangesCrc : Prop :=
  ∀ (before after : List Byte) (a b : Byte) (s t : State),
    exec (.crc16 (before ++ [a] ++ after)) s = .next t → exec (.crc16 (before ++ [b] ++ after)) s = .next t → a = b

/-- R163 (the order of the two bytes is the spec's decision D8). CRC_APPEND appends the CRC16 of the data, low
byte first; of no data it makes two zero bytes, which rests on the complement that D8 and G1 decide
(notes/assumptions/18.md). That its opcode 0x09 is followed by the data as they are, is the model's packing
(notes/assumptions/5.md). -/
def Obligations.CrcAppendPutsLowByteFirst : Prop :=
  ∀ (data : List Byte) (s : State),
    decode (.command (0x09 :: data)) = .ok (.crcAppend data)
    ∧ ∃ (crc : U16), exec (.crc16 data) s = answered s (.ok (.u16 crc))
      ∧ exec (.crcAppend data) s = answered s (.ok (.bytes (data ++ [octet crc 0, octet crc 1])))
      ∧ exec (.crcAppend []) s = answered s (.ok (.bytes [0x00, 0x00]))

/-- R164 (the length test is the spec's decision D16). CRC_CHECK accepts a frame exactly when its last two
bytes are the CRC of the rest, low byte first; it accepts what CRC_APPEND makes, whose own CRC is 0x0F47
(R165 (d), general knowledge in the spec). -/
def Obligations.CrcCheckComparesTheLastTwoBytes : Prop :=
  ∀ (frame data : List Byte) (lo hi : Byte) (s : State),
    (frame.length < 2 → exec (.crcCheck frame) s = failedWith s .pppShort 0)
    ∧ (tableCrc data ≠ word lo hi → exec (.crcCheck (data ++ [lo, hi])) s = failedWith s .pppCrc 0)
    ∧ (tableCrc data = word lo hi → exec (.crcCheck (data ++ [lo, hi])) s = answered s (.ok .none))
    ∧ exec (.crcCheck (crcAppend data)) s = answered s (.ok .none)
    ∧ exec (.crc16 (crcAppend data)) s = answered s (.ok (.u16 0x0F47))

/-! ## U3, the outer frame -/

/-- R181 (the order and the last test are the spec's decisions D34 and D10). OUTER_PARSE: the five tests
in their order, and what it returns when all pass. -/
def Obligations.OuterParseTestsInOrder : Prop :=
  ∀ (buf : List Byte) (b0 len rsvd ck : Byte) (rest : List Byte) (s : State),
    (buf.length < 18 → exec (.outerParse buf) s = failedWith s .outShort buf.length)
    ∧ (buf = b0 :: len :: rsvd :: ck :: rest → 14 ≤ rest.length →
        (b0 ≠ 0x7E → exec (.outerParse buf) s = failedWith s .outStart b0.toNat)
        ∧ (b0 = 0x7E → (0x70 < len.toNat ∨ rsvd ≠ 0) → exec (.outerParse buf) s = failedWith s .outLen len.toNat)
        ∧ (b0 = 0x7E → len.toNat ≤ 0x70 → rsvd = 0 → ck ≠ 0x7E ^^^ len →
            exec (.outerParse buf) s = failedWith s .outCksum ck.toNat)
        ∧ (b0 = 0x7E → len.toNat < 18 → rsvd = 0 → ck = 0x7E ^^^ len →
            exec (.outerParse buf) s = failedWith s .outLenSmall len.toNat)
        ∧ (b0 = 0x7E → 18 ≤ len.toNat → len.toNat ≤ 0x70 → rsvd = 0 → ck = 0x7E ^^^ len →
            ∀ (src dst : Addr) (t0 t1 : Byte) (payload : List Byte),
              rest = src.bytes ++ dst.bytes ++ [t0, t1] ++ payload →
              exec (.outerParse buf) s = answered s (.ok (.outerHeader len src dst (word t0 t1)))))

/-- R183 (the refusal is the spec's decision D11). OUTER_BUILD: the frame of the layout R100, or
OUT_TOO_LONG with the saturated length. -/
def Obligations.OuterBuildLaysOutTheFrame : Prop :=
  ∀ (src dst : Addr) (typ : U16) (payload : List Byte) (s : State),
    (payload.length ≤ 94 →
      exec (.outerBuild src dst typ payload) s
        = answered s (.ok (.bytes ([0x7E, BitVec.ofNat 8 (18 + payload.length), 0x00,
            0x7E ^^^ BitVec.ofNat 8 (18 + payload.length)] ++ src.bytes ++ dst.bytes ++ [octet typ 0, octet typ 1]
            ++ payload))))
    ∧ (94 < payload.length →
      exec (.outerBuild src dst typ payload) s = failedWith s .outTooLong (min (18 + payload.length) 0xFFFF))

/-- R184, which the spec derives: OUTER_PARSE reads back what OUTER_BUILD built. -/
def Obligations.OuterParseReadsWhatOuterBuildBuilt : Prop :=
  ∀ (src dst : Addr) (typ : U16) (payload x : List Byte) (s : State),
    exec (.outerBuild src dst typ payload) s = answered s (.ok (.bytes x)) →
      exec (.outerParse x) s = answered s (.ok (.outerHeader (BitVec.ofNat 8 x.length) src dst typ))
        ∧ x.length ≤ 0x70 ∧ x.drop 18 = payload

/-! ## U4, the PPP codec -/

/-- R212 (the length test is the spec's decision D16). PPP_EXTRACT: the errors of DESTUFF, then length,
marker and FCS in that order; a frame that passes all gives its protocol and body. -/
def Obligations.PppExtractTestsInOrder : Prop :=
  ∀ (raw f body : List Byte) (p0 p1 c0 c1 : Byte) (e : Err) (s : State),
    (destuff raw = .err e → exec (.pppExtract raw) s = answered s (.err e))
    ∧ (destuff raw = .ok f → f.length < 6 → exec (.pppExtract raw) s = failedWith s .pppShort f.length)
    ∧ (destuff raw = .ok f → 6 ≤ f.length → ∀ m0 m1, f.take 2 = [m0, m1] → (m0 ≠ 0xFF ∨ m1 ≠ 0x03) →
        exec (.pppExtract raw) s = answered s (.err ⟨.badMarker, word m0 m1⟩))
    ∧ (destuff raw = .ok ([0xFF, 0x03, p0, p1] ++ body ++ [c0, c1]) →
        tableCrc ([0xFF, 0x03, p0, p1] ++ body) ≠ word c0 c1 →
        exec (.pppExtract raw) s = failedWith s .pppCrc 0)
    ∧ (destuff raw = .ok ([0xFF, 0x03, p0, p1] ++ body ++ [c0, c1]) →
        tableCrc ([0xFF, 0x03, p0, p1] ++ body) = word c0 c1 →
        exec (.pppExtract raw) s = answered s (.ok (.pppFrame (word p0 p1) body)))

/-- R214. PPP_BUILD: marker and protocol, the body, the CRC16 of all that, stuffed in one pair of flags. That
its opcode 0x19 is followed by the protocol, low byte first, and the body is the model's packing
(notes/assumptions/5.md). -/
def Obligations.PppBuildStuffsTheWholeFrame : Prop :=
  ∀ (protocol : U16) (body frame : List Byte) (s : State),
    frame = [0xFF, 0x03, octet protocol 0, octet protocol 1] ++ body →
    decode (.command (0x19 :: octet protocol 0 :: octet protocol 1 :: body)) = .ok (.pppBuild protocol body)
    ∧ ∃ (crc : U16), exec (.crc16 frame) s = answered s (.ok (.u16 crc))
      ∧ exec (.pppBuild protocol body) s
        = answered s (.ok (.bytes ([0x7E] ++ (frame ++ [octet crc 0, octet crc 1]).flatMap escaped ++ [0x7E])))

/-- R215, which the spec derives: PPP_EXTRACT of what PPP_BUILD built gives the protocol and the body. -/
def Obligations.PppExtractUndoesPppBuild : Prop :=
  ∀ (protocol : U16) (body raw : List Byte) (s : State),
    exec (.pppBuild protocol body) s = answered s (.ok (.bytes raw)) →
      exec (.pppExtract raw) s = answered s (.ok (.pppFrame protocol body))

/-! ## U5, the inner message -/

/-- R241 (the length test is the spec's decision D20), with R112 and R113 (D20): INNER_PARSE's two tests,
and every field of an accepted body. -/
def Obligations.InnerParseReadsEveryField : Prop :=
  ∀ (body : List Byte) (s : State),
    (body.length < 36 → exec (.innerParse body) s = failedWith s .innerShort body.length)
    ∧ (∀ n r, body = n :: r → 36 ≤ body.length → n.toNat * 4 ≠ body.length →
        exec (.innerParse body) s = failedWith s .innerLen n.toNat)
    ∧ (∀ (n a2 b1 b2 c1 c2 e0 e1 p0 p1 g0 g1 y0 y1 u0 u1 x0 x1 x2 x3 z0 z1 z2 z3 : Byte) (to2 from2 : Addr)
        (extra : List Byte),
        body = [n, a2] ++ to2.bytes ++ [b1, b2] ++ from2.bytes
          ++ [c1, c2, e0, e1, p0, p1, g0, g1, y0, y1, u0, u1, x0, x1, x2, x3, z0, z1, z2, z3] ++ extra →
        n.toNat * 4 = body.length →
        exec (.innerParse body) s = answered s (.ok (.message
          { a2, to2, b1, b2, from2, c1, c2, error := word e0 e1, pktcount := word p0 p1,
            tag := word g0 (g1 &&& 0x7F), first := g1.getLsbD 7, response := y0.getLsbD 0,
            msgType := word (y0 &&& 0xFE) y1, subtype := word u0 u1, arg1 := word32 x0 x1 x2 x3,
            arg2 := word32 z0 z1 z2 z3, extra })))

/-- R243 (three of the four checks are the spec's decision D22). INNER_BUILD: the four checks in their
order, and the bytes of the layout R110. -/
def Obligations.InnerBuildLaysOutEveryField : Prop :=
  ∀ (m : InnerMessage) (s : State),
    (m.extra.length % 4 ≠ 0 → exec (.innerBuild m) s = failedWith s .extraAlign (m.extra.length % 4))
    ∧ (m.extra.length % 4 = 0 → 984 < m.extra.length → exec (.innerBuild m) s = failedWith s .innerTooLong 0)
    ∧ (m.extra.length % 4 = 0 → m.extra.length ≤ 984 → 0x7FFF < m.tag.toNat →
        exec (.innerBuild m) s = failedWith s .tagRange 0)
    ∧ (m.extra.length % 4 = 0 → m.extra.length ≤ 984 → m.tag.toNat ≤ 0x7FFF → m.msgType.getLsbD 0 = true →
        exec (.innerBuild m) s = answered s (.err ⟨.typeBit0, m.msgType⟩))
    ∧ (m.wf = true →
        exec (.innerBuild m) s = answered s (.ok (.bytes
          ([BitVec.ofNat 8 (9 + m.extra.length / 4), m.a2] ++ m.to2.bytes ++ [m.b1, m.b2] ++ m.from2.bytes
            ++ [m.c1, m.c2, octet m.error 0, octet m.error 1, octet m.pktcount 0, octet m.pktcount 1,
                octet m.tag 0, octet m.tag 1 ||| (if m.first then 0x80 else 0),
                octet m.msgType 0 ||| (if m.response then 1 else 0), octet m.msgType 1,
                octet m.subtype 0, octet m.subtype 1,
                octet m.arg1 0, octet m.arg1 1, octet m.arg1 2, octet m.arg1 3,
                octet m.arg2 0, octet m.arg2 1, octet m.arg2 2, octet m.arg2 3] ++ m.extra))))

/-- R244, which the spec derives: parsing what was built gives the message back, and building what was
parsed gives the bytes back, so no bit of an accepted body is lost. -/
def Obligations.InnerParseAndBuildAreInverse : Prop :=
  ∀ (m : InnerMessage) (body : List Byte) (s : State),
    (m.wf = true → exec (.innerBuild m) s = answered s (.ok (.bytes body)) →
      exec (.innerParse body) s = answered s (.ok (.message m)))
    ∧ (exec (.innerParse body) s = answered s (.ok (.message m)) →
      m.wf = true ∧ exec (.innerBuild m) s = answered s (.ok (.bytes body)))

/-! ## The address filters -/

/-- R185. OUTER_FILTER accepts the local link address and the two broadcast addresses, and no other. That its
opcode 0x12 (the spec's decision D3) is followed by the six bytes of the address is the model's packing
(notes/assumptions/5.md). -/
def Obligations.OuterFilterAcceptsLocalAndBroadcast : Prop :=
  ∀ (dst : Addr) (s : State),
    decode (.command (0x12 :: dst.bytes)) = .ok (.outerFilter dst)
    ∧ exec (.outerFilter dst) s
      = answered s (.ok (.bit (decide (dst = s.localAddr ∨ dst.bytes = List.replicate 6 0xFF
          ∨ dst.bytes = List.replicate 6 0x00))))

/-- R245 (where `BCAST2` is a parameter, the spec's decision D21). INNER_FILTER accepts the local secondary
address and `BCAST2`, and no other. -/
def Obligations.InnerFilterAcceptsLocalAndBroadcast : Prop :=
  ∀ (dst : Addr) (s : State),
    exec (.innerFilter dst) s
      = answered s (.ok (.bit (decide (dst = s.localAddr2 ∨ dst = s.cfg.bcast2))))

/-! ## Host commands -/

/-- R322, R400, R48 (reset is the spec's decision D30). RESET gives every piece of state its reset value
from the parameters, answers `ok`, and leaves the parameters and the environment's stimuli; a hardware
reset does the same without a response (the model's stimulus, notes/assumptions/15.md). -/
def Obligations.ResetGivesEveryFieldItsResetValue : Prop :=
  ∀ (s : State) (rest : List Stimulus),
    exec .reset s = .next
      { cfg := s.cfg, localAddr := s.cfg.localAddrReset, localAddr2 := s.cfg.localAddr2Reset,
        tagctr := s.cfg.tagReset, pend := ⟨false, .single, 0⟩, cst := .idle, accExpected := none,
        accCollected := [], esr := 0, ob := [], rb := [], evq := [], txq := [],
        resp := some (.ok .none), inputs := s.inputs }
    ∧ (s.inputs = .hardReset :: rest → step s = .next
      { cfg := s.cfg, localAddr := s.cfg.localAddrReset, localAddr2 := s.cfg.localAddr2Reset,
        tagctr := s.cfg.tagReset, pend := ⟨false, .single, 0⟩, cst := .idle, accExpected := none,
        accCollected := [], esr := 0, ob := [], rb := [], evq := [], txq := [],
        resp := none, inputs := rest })

/-- R323, R324, R330 (the spec's decisions D30, D35). With no request pending, SETADDR, SETADDR2 and FLUSH
write the local addresses and empty `OB` and `RB`, and nothing else. -/
def Obligations.ConfigurationCommandsWithNothingPending : Prop :=
  ∀ (a : Addr) (s : State), s.pend.valid = false →
    exec (.setaddr a) s = .next { s with localAddr := a, resp := some (.ok .none) }
    ∧ exec (.setaddr2 a) s = .next { s with localAddr2 := a, resp := some (.ok .none) }
    ∧ exec .flush s = .next { s with ob := [], rb := [], resp := some (.ok .none) }

/-- R325 (the policy is the spec's decision D28). TAGALLOC hands out `TAGCTR`, or the tag after it when
that one is pending, never the pending tag, and counts modulo 0x8000. -/
def Obligations.TagallocSkipsThePendingTag : Prop :=
  ∀ (s : State), ∃ (t : U15),
    exec .tagalloc s = .next { s with tagctr := BitVec.ofNat 15 ((t.toNat + 1) % 0x8000), resp := some (.ok (.tag t)) }
    ∧ (s.pend.valid = true → t ≠ s.pend.tag)
    ∧ (¬(s.pend.valid = true ∧ s.tagctr = s.pend.tag) → t = s.tagctr)
    ∧ (s.pend.valid = true → s.tagctr = s.pend.tag → t.toNat = (s.tagctr.toNat + 1) % 0x8000)

/-- R326 (Busy is the spec's decision D29). ARM opens a wait from any state with none pending, without
touching `TAGCTR`; a tag above 0x7FFF is refused. -/
def Obligations.ArmOpensAWait : Prop :=
  ∀ (tag : U16) (mode : Mode) (s : State), s.pend.valid = false →
    (tag.toNat ≤ 0x7FFF →
      exec (.arm tag mode) s = .next
        { s with pend := ⟨true, mode, BitVec.ofNat 15 tag.toNat⟩, cst := .awaitingFirst, accExpected := none,
                 accCollected := [], resp := some (.ok .none) })
    ∧ (0x7FFF < tag.toNat → exec (.arm tag mode) s = failedWith s .tagRange 0)

/-- R327 with the defaults of R216 (the spec's decision D18). SEND appends one whole outer frame to TXQ,
at any time, or refuses with the error of INNER_BUILD or OUTER_BUILD. -/
def Obligations.SendAppendsOneOuterFrame : Prop :=
  ∀ (m : InnerMessage) (src dst : Option Addr) (typ : Option U16) (s : State) (frame : List Byte) (e : Err),
    frame = sentFrame s m (src.getD s.localAddr) (dst.getD (Addr.fill 0xFF)) (typ.getD s.cfg.otypePpp) →
    (m.wf = true → frame.length ≤ 0x70 →
      exec (.send m src dst typ) s = .next { s with txq := s.txq ++ frame, resp := some (.ok .none) })
    ∧ (m.wf = true → 0x70 < frame.length → exec (.send m src dst typ) s = failedWith s .outTooLong frame.length)
    ∧ (innerBuild m = .err e → exec (.send m src dst typ) s = answered s (.err e))

/-- R67, R412 (f), derived in the spec (and its decision D18). A well-formed message is sent exactly when
its `extra` and the reserved bytes of its de-stuffed frame together are at most 50. -/
def Obligations.SendFitsWithinFiftyBytes : Prop :=
  ∀ (m : InnerMessage) (s t : State), m.wf = true → exec (.send m none none none) s = .next t →
    (t.resp = some (.ok .none) ↔
      m.extra.length + (pppUnit s.cfg.smaProtocolId (innerUnit m)).countP reserved ≤ 50)

/-- R328 (checks before changes are the spec's decision D31). REQUEST with nothing pending takes `TAGCTR` as
its tag, arms, and sends to the default addresses; refused, it changes nothing. -/
def Obligations.RequestArmsAndSends : Prop :=
  ∀ (m : InnerMessage) (mode : Mode) (s : State) (frame : List Byte) (e : Err), s.pend.valid = false →
    frame = sentFrame s { m with tag := BitVec.ofNat 16 s.tagctr.toNat } s.localAddr (Addr.fill 0xFF)
      s.cfg.otypePpp →
    (({ m with tag := 0 } : InnerMessage).wf = true → frame.length ≤ 0x70 →
      exec (.request m mode) s = .next
        { s with tagctr := BitVec.ofNat 15 ((s.tagctr.toNat + 1) % 0x8000), pend := ⟨true, mode, s.tagctr⟩,
                 cst := .awaitingFirst, accExpected := none, accCollected := [], txq := s.txq ++ frame,
                 resp := some (.ok (.tag s.tagctr)) })
    ∧ (({ m with tag := 0 } : InnerMessage).wf = true → 0x70 < frame.length →
      exec (.request m mode) s = failedWith s .outTooLong frame.length)
    ∧ (innerBuild { m with tag := 0 } = .err e → exec (.request m mode) s = answered s (.err e))

/-- R135: "REQUEST is exactly TAGALLOC, then ARM with the tag returned, then SEND with that tag to the
default addresses", when it is not refused. -/
def Obligations.RequestIsTagallocArmSend : Prop :=
  ∀ (m : InnerMessage) (mode : Mode) (s t : State) (tag : U15),
    exec (.request m mode) s = .next t → t.resp = some (.ok (.tag tag)) →
      ∃ t1 t2 t3, exec .tagalloc s = .next t1 ∧ t1.resp = some (.ok (.tag tag))
        ∧ exec (.arm (tag.setWidth 16) mode) t1 = .next t2
        ∧ exec (.send { m with tag := tag.setWidth 16 } none none none) t2 = .next t3
        ∧ t = { t3 with resp := some (.ok (.tag tag)) }

/-- R329 (the spec's decision D29). ABORT ends a wait with `EV_ABORTED(tag)` and `CST = Idle`; with nothing
pending it does nothing. -/
def Obligations.AbortEndsTheWait : Prop :=
  ∀ (s : State),
    (s.pend.valid = true → exec .abort s = .next
      { s with evq := s.evq ++ [.aborted s.pend.tag], pend := ⟨false, s.pend.mode, s.pend.tag⟩, cst := .idle,
               accExpected := none, accCollected := [], resp := some (.ok .none) })
    ∧ (s.pend.valid = false → exec .abort s = answered s (.ok .none))

/-- R331 with the codes of R33 (the numbers are the spec's decision D3). RDREG: the ten registers, and
BAD_REG for every other number. -/
def Obligations.RdregReadsTheTenRegisters : Prop :=
  ∀ (s : State) (reg : Byte),
    exec (.rdreg 0) s = answered s (.ok (.addr s.localAddr))
    ∧ exec (.rdreg 1) s = answered s (.ok (.addr s.localAddr2))
    ∧ exec (.rdreg 2) s = answered s (.ok (.nat s.tagctr.toNat))
    ∧ exec (.rdreg 3) s = answered s (.ok (.nat ((if s.pend.valid then 0x10000 else 0)
        + (if s.pend.mode = .multi then 0x8000 else 0) + s.pend.tag.toNat)))
    ∧ exec (.rdreg 4) s = answered s (.ok (.nat (match s.cst with
        | .idle => 0 | .awaitingFirst => 1 | .accumulating => 2 | .complete => 3 | .failed => 4)))
    ∧ exec (.rdreg 5) s = answered s (.ok (.nat (match s.accExpected with
        | some e => 0x20000 + e.toNat | none => 0)))
    ∧ exec (.rdreg 6) s = answered s (.ok (.nat s.accCollected.length))
    ∧ exec (.rdreg 7) s = answered s (.ok (.nat s.esr.toNat))
    ∧ exec (.rdreg 8) s = answered s (.ok (.nat s.ob.length))
    ∧ exec (.rdreg 9) s = answered s (.ok (.nat s.rb.length))
    ∧ (9 < reg.toNat → exec (.rdreg reg) s = failedWith s .badReg reg.toNat)

/-- R130, R333, R372 (the spec's decision D3). On the command port each of the 231 opcodes that are not
assigned answers BAD_OPCODE and changes nothing, whatever bytes follow it: the opcode is tested first. -/
def Obligations.UnassignedOpcodesAnswerBadOpcode : Prop :=
  ∀ (op : Byte) (operands : List Byte) (s : State) (rest : List Stimulus), op ∉ assignedOpcodes →
    exec (.illegal ⟨op, operands⟩) s = failedWith s .badOpcode op.toNat
    ∧ (s.inputs = .word (.command (op :: operands)) :: rest →
        step s = failedWith { s with inputs := rest } .badOpcode op.toNat)

/-- R321 (Busy is the spec's decision D29). A command that answers `err` changes nothing; during a wait the
five commands of R321 answer Busy with the pending tag; no other command ever answers Busy. -/
def Obligations.RefusedCommandsChangeNothing : Prop :=
  ∀ (i : Instr) (s t : State), isCommand i = true → exec i s = .next t →
    (∀ e, t.resp = some (.err e) → t = { s with resp := some (.err e) })
    ∧ (refusedInWait i = true → s.pend.valid = true →
        t = { s with resp := some (.err ⟨.busy, BitVec.ofNat 16 s.pend.tag.toNat⟩) })
    ∧ (∀ e, t.resp = some (.err e) → e.cause = .busy → refusedInWait i = true ∧ s.pend.valid = true)

/-! ## The receive path -/

/-- R365 (that every error ends the wait is the spec's decision D25). RAISE appends the event, sets the bit
of the kind, and ends a pending wait; it touches nothing else. The kind, the kind's code and the sub-cause code
of every cause are those of the tables R361 and R362 (the spec's decision D4). -/
def Obligations.RaiseReportsAndEndsTheWait : Prop :=
  ∀ (e : Err) (s : State) (c : Cause),
    ((errorRow e.cause).1 ≠ .argument → (errorRow e.cause).1 ≠ .busy → exec (.raise e) s = .next (raised e s))
    ∧ (causeKind c, kindCode (causeKind c), causeSub c) = errorRow c

/-- R190 (the deframer is the spec's decision D9). RX_BYTE: bytes are kept until the 18th; a bad header is
discarded and raised with no search for a start byte; a complete frame leaves `OB` and is delivered. -/
def Obligations.RxByteCutsTheStream : Prop :=
  ∀ (b : Byte) (s : State) (ob : List Byte) (e : Err) (h : OuterHeader), ob = s.ob ++ [b] →
    (ob.length < 18 → exec (.rxByte b) s = .next { s with ob := ob })
    ∧ (ob.length = 18 → outerParse ob = .err e → exec (.rxByte b) s = .next (raised e { s with ob := [] }))
    ∧ (18 ≤ ob.length → (ob.length = 18 → outerParse ob = .ok h) → ob.length ≠ (ob.getD 1 0).toNat →
        exec (.rxByte b) s = .next { s with ob := ob })
    ∧ (18 ≤ ob.length → (ob.length = 18 → outerParse ob = .ok h) → ob.length = (ob.getD 1 0).toNat →
        exec (.rxByte b) s = .next (outerDeliver ob { s with ob := [] }))

/-- R193, R195 (silent dropping and the treatment of the types are the spec's decisions D12 and D13).
OUTER_DELIVER of a frame with the layout of R100. -/
def Obligations.OuterDeliverFiltersAndRoutes : Prop :=
  ∀ (head : List Byte) (src dst : Addr) (t0 t1 : Byte) (payload frame : List Byte) (s : State),
    head.length = 4 → frame = head ++ src.bytes ++ dst.bytes ++ [t0, t1] ++ payload →
    (¬(dst = s.localAddr ∨ dst = Addr.fill 0xFF ∨ dst = Addr.fill 0x00) → exec (.outerDeliver frame) s = .next s)
    ∧ ((dst = s.localAddr ∨ dst = Addr.fill 0xFF ∨ dst = Addr.fill 0x00) →
        (word t0 t1 ≠ s.cfg.otypePpp → word t0 t1 ≠ s.cfg.otypePpp2 →
          exec (.outerDeliver frame) s = .next { s with evq := s.evq ++ [.outer src dst (word t0 t1) payload] })
        ∧ ((word t0 t1 = s.cfg.otypePpp ∨ word t0 t1 = s.cfg.otypePpp2) →
          exec (.outerDeliver frame) s = .next (pppRx src payload s)))

/-- R217 (byte-serial reassembly and the capacities are the spec's decisions D15 and D17). From an empty
buffer with room, an opening flag and bytes without a flag are stored as they are, still stuffed; a closing
flag after them empties the buffer and extracts exactly that frame. Byte by byte: a flag ends whatever the
buffer holds; any other byte, and a flag into an empty buffer, joins the buffer, also without an opening flag
before it. A new source with a full table drops the whole payload; a buffer that would grow too long is
emptied. -/
def Obligations.PppRxReassemblesWithinTheCapacities : Prop :=
  ∀ (src : Addr) (body rest : List Byte) (b : Byte) (s : State),
    (rbWf s.rb = true → rbGet s.rb src = [] → hasRoom src s → 0x7E ∉ body → fitsBuffer (body.length + 1) s →
      exec (.pppRx src ([0x7E] ++ body)) s = .next { s with rb := rbSet s.rb src ([0x7E] ++ body) }
      ∧ exec (.pppRx src ([0x7E] ++ body ++ [0x7E])) s = .next (extracted src ([0x7E] ++ body ++ [0x7E]) s))
    ∧ (rbGet s.rb src ≠ [] → exec (.pppRx src [0x7E]) s = .next (extracted src (rbGet s.rb src ++ [0x7E]) s))
    ∧ (hasRoom src s → (b ≠ 0x7E ∨ rbGet s.rb src = []) → fitsBuffer ((rbGet s.rb src).length + 1) s →
      exec (.pppRx src [b]) s = .next { s with rb := rbSet s.rb src (rbGet s.rb src ++ [b]) })
    ∧ (rbGet s.rb src = [] → s.cfg.nSrc = some s.rb.length →
      exec (.pppRx src (b :: rest)) s = .next (raised ⟨.srcTableFull, 0⟩ s))
    ∧ (∀ c, hasRoom src s → s.cfg.pppBufMax = some c → c ≤ (rbGet s.rb src).length →
        (b ≠ 0x7E ∨ rbGet s.rb src = []) →
        exec (.pppRx src [b]) s = .next (raised ⟨.pppBufOverflow, 0⟩ { s with rb := rbSet s.rb src [] }))

/-- R220, which the spec derives from R217: with an unbounded table only the concatenation of a source's
payloads matters, wherever they are cut. -/
def Obligations.OnlyTheConcatenationOfPayloadsMatters : Prop :=
  ∀ (src : Addr) (p q : List Byte) (s t : State), s.cfg.nSrc = none → exec (.pppRx src p) s = .next t →
    exec (.pppRx src (p ++ q)) s = exec (.pppRx src q) t

/-- R219, with R217's count of entries (the spec's decision D17) and R365 (D25). PPP_RX with one source never
changes the buffer of another, and never reads it: with other contents in the other sources' buffers, of as
many sources or, when `N_SRC` is infinite, of any number of them, the step does the same to everything else. An
error it reports does end the pending wait, whichever source caused it. -/
def Obligations.SourcesAreIsolated : Prop :=
  ∀ (src other : Addr) (payload : List Byte) (rb : List (Addr × List Byte)) (s t u : State),
    exec (.pppRx src payload) s = .next t →
    (other ≠ src → rbGet t.rb other = rbGet s.rb other)
    ∧ (rbWf s.rb = true → rbWf rb = true → rbGet rb src = rbGet s.rb src →
      (rb.length = s.rb.length ∨ s.cfg.nSrc = none) →
      exec (.pppRx src payload) { s with rb := rb } = .next u →
      u = { t with rb := u.rb } ∧ rbGet u.rb src = rbGet t.rb src)
    ∧ ∃ evs, t.evq = s.evq ++ evs ∧ ((∃ ev ∈ evs, isError ev = true) → t.pend.valid = false)

/-- R247 (the spec's decisions D19 and D20). INNER_RX: protocol, length, address filter, DISPATCH. -/
def Obligations.InnerRxTestsInOrder : Prop :=
  ∀ (protocol : U16) (body : List Byte) (m : InnerMessage) (e : Err) (s : State),
    (protocol ≠ s.cfg.smaProtocolId → exec (.innerRx protocol body) s = .next (raised ⟨.wrongProtocol, protocol⟩ s))
    ∧ (protocol = s.cfg.smaProtocolId → innerParse body = .err e →
        exec (.innerRx protocol body) s = .next (raised e s))
    ∧ (protocol = s.cfg.smaProtocolId → innerParse body = .ok m → m.to2 ≠ s.localAddr2 → m.to2 ≠ s.cfg.bcast2 →
        exec (.innerRx protocol body) s = .next s)
    ∧ (protocol = s.cfg.smaProtocolId → innerParse body = .ok m → (m.to2 = s.localAddr2 ∨ m.to2 = s.cfg.bcast2) →
        exec (.innerRx protocol body) s = .next (dispatch m s))

/-- R276 with R272 and R277 (what matches is the spec's decision D33, the order match, device error, mode its
decision D24). DISPATCH: a message that does not match is ignored; a device error comes before
the mode's own rules; in mode SINGLE the first match is the result. -/
def Obligations.DispatchMatchesThenDecides : Prop :=
  ∀ (m : InnerMessage) (s : State),
    (¬matching m s → exec (.dispatch m) s = .next s)
    ∧ (matching m s → m.error ≠ 0 → exec (.dispatch m) s = .next (raised ⟨.device, m.error⟩ s))
    ∧ (matching m s → m.error = 0 → s.pend.mode = .single →
        exec (.dispatch m) s = .next
          { s with evq := s.evq ++ [.resultSingle m], pend := ⟨false, .single, s.pend.tag⟩, cst := .complete })
    ∧ (matching m s → m.error = 0 → s.pend.mode = .multi → exec (.dispatch m) s = .next (accStep m s))

/-- R302 (17-bit counts and the capacity are the spec's decision D27). ACC_STEP row by row; `n` messages are
collected and `e` are expected. -/
def Obligations.AccStepCollectsInStrictOrder : Prop :=
  ∀ (m : InnerMessage) (s : State) (e : U17),
    (s.accExpected = none → m.first = false →
      exec (.accStep m) s = .next (raised ⟨.missingFirst, m.pktcount⟩ s))
    ∧ (∀ c, s.accExpected = none → m.first = true → s.cfg.accMaxPkts = some c → c < m.pktcount.toNat + 1 →
      exec (.accStep m) s = .next (raised ⟨.accCapacity, m.pktcount⟩ s))
    ∧ (s.accExpected = none → m.first = true → (∀ c, s.cfg.accMaxPkts = some c → m.pktcount.toNat + 1 ≤ c) →
        (m.pktcount.toNat ≠ 0 → exec (.accStep m) s = .next
          { s with accExpected := some (BitVec.ofNat 17 (m.pktcount.toNat + 1)), accCollected := [m],
                   cst := .accumulating })
        ∧ (m.pktcount.toNat = 0 → exec (.accStep m) s = .next
          { s with evq := s.evq ++ [.resultMulti [m]], pend := ⟨false, s.pend.mode, s.pend.tag⟩,
                   cst := .complete, accExpected := none, accCollected := [] }))
    ∧ (s.accExpected = some e → s.accCollected.length < e.toNat →
        m.pktcount.toNat ≠ e.toNat - s.accCollected.length - 1 →
        exec (.accStep m) s = .next (raised ⟨.outOfOrder, m.pktcount⟩ s))
    ∧ (s.accExpected = some e → s.accCollected.length < e.toNat →
        m.pktcount.toNat = e.toNat - s.accCollected.length - 1 →
        (m.pktcount.toNat ≠ 0 → exec (.accStep m) s = .next { s with accCollected := s.accCollected ++ [m] })
        ∧ (m.pktcount.toNat = 0 → exec (.accStep m) s = .next
          { s with evq := s.evq ++ [.resultMulti (s.accCollected ++ [m])],
                   pend := ⟨false, s.pend.mode, s.pend.tag⟩, cst := .complete, accExpected := none,
                   accCollected := [] }))

/-! ## The wire formats as units on the link (the model's reading of the table's FMT rows,
notes/assumptions/7.md) -/

/-- R92, R95, R217. A symbol of a source's stuffed stream comes in as the payload of one outer frame. Taken byte
by byte from an empty `OB`, a flag opens a frame in an empty buffer with room, and ends the frame in a buffer that
holds something; an escape pair whose second byte is no flag joins its source's buffer as two bytes, still
stuffed. Which outer frame carries the symbol is the model's choice (notes/assumptions/7.md). -/
def Obligations.SymbolsJoinTheStuffedStream : Prop :=
  ∀ (src : Addr) (v : Byte) (s : State),
    exec (.fmtFlag src) s = .next (arriving (carrierFrame src s [0x7E]) s)
    ∧ exec (.fmtEscapePair src v) s = .next (arriving (carrierFrame src s [0x7D, v]) s)
    ∧ (s.ob = [] → rbGet s.rb src = [] → hasRoom src s → fitsBuffer 1 s →
      runFor 19 (arriving (carrierFrame src s [0x7E]) s) = .next { s with rb := rbSet s.rb src [0x7E] })
    ∧ (s.ob = [] → rbGet s.rb src ≠ [] →
      runFor 19 (arriving (carrierFrame src s [0x7E]) s) = .next (extracted src (rbGet s.rb src ++ [0x7E]) s))
    ∧ (s.ob = [] → v ≠ 0x7E → hasRoom src s → fitsBuffer ((rbGet s.rb src).length + 2) s →
      runFor 20 (arriving (carrierFrame src s [0x7D, v]) s)
        = .next { s with rb := rbSet s.rb src (rbGet s.rb src ++ [0x7D, v]) })

/-- R92, R100, R190. The bytes of an outer frame come in one by one. Taken from an empty `OB`, the frame is
delivered whole: dropped if it is for another address, passed up if it is no PPP carrier, reassembled if it is
one. That the row means its bytes on the link is the model's choice (notes/assumptions/7.md). -/
def Obligations.OuterFrameIsDeliveredWhole : Prop :=
  ∀ (src dst : Addr) (typ : U16) (payload bytes : List Byte) (s : State), payload.length ≤ 94 →
    bytes = frameBytes src dst typ payload →
    exec (.fmtOuterFrame src dst typ payload) s = .next (arriving bytes s)
    ∧ (s.ob = [] →
      (¬(dst = s.localAddr ∨ dst = Addr.fill 0xFF ∨ dst = Addr.fill 0x00) →
        runFor bytes.length (arriving bytes s) = .next s)
      ∧ ((dst = s.localAddr ∨ dst = Addr.fill 0xFF ∨ dst = Addr.fill 0x00) →
          (typ ≠ s.cfg.otypePpp → typ ≠ s.cfg.otypePpp2 →
            runFor bytes.length (arriving bytes s) = .next { s with evq := s.evq ++ [.outer src dst typ payload] })
          ∧ ((typ = s.cfg.otypePpp ∨ typ = s.cfg.otypePpp2) →
            runFor bytes.length (arriving bytes s) = .next (pppRx src payload s))))

/-- R92, R105, R149, R215, R217. A PPP frame comes in stuffed, cut across the payloads of outer frames. Where
the way is clear, whatever its protocol and body, it passes every check and reaches INNER_RX; its source's buffer
is empty again. Which cut and which outer frames is the model's choice (notes/assumptions/7.md). -/
def Obligations.PppFrameReachesInnerRx : Prop :=
  ∀ (src : Addr) (protocol : U16) (body : List Byte) (s : State),
    ∃ parts bytes, cutsInto (pppBuild protocol body) parts ∧ bytes = parts.flatMap (carrierFrame src s)
      ∧ exec (.fmtPppFrame src protocol body) s = .next (arriving bytes s)
      ∧ (wayIsClear src (pppBuild protocol body) s →
        runFor bytes.length (arriving bytes s) = .next (innerRx protocol body s))

/-- R110, R149, R244, R247. A well-formed inner message comes in as the body of a PPP frame of the protocol
`SMA_PROTOCOL_ID`. Where the way is clear it reaches DISPATCH if it passes the address filter and leaves no trace
if it does not. Which cut and which outer frames is the model's choice (notes/assumptions/7.md). -/
def Obligations.InnerMessageReachesDispatch : Prop :=
  ∀ (src : Addr) (m : InnerMessage) (s : State) (stream : List Byte), m.wf = true →
    stream = pppBuild s.cfg.smaProtocolId (innerUnit m) →
    ∃ parts bytes, cutsInto stream parts ∧ bytes = parts.flatMap (carrierFrame src s)
      ∧ exec (.fmtInnerMessage ⟨src, m⟩) s = .next (arriving bytes s)
      ∧ (wayIsClear src stream s →
        ((m.to2 = s.localAddr2 ∨ m.to2 = s.cfg.bcast2) →
          runFor bytes.length (arriving bytes s) = .next (dispatch m s))
        ∧ (m.to2 ≠ s.localAddr2 → m.to2 ≠ s.cfg.bcast2 → runFor bytes.length (arriving bytes s) = .next s))

/-! ## Runs -/

/-- R300, R301, R307: a reply of N packets, N any number, whose counts run N-1, …, 0 with `first` on the
first, ends a MULTI wait with exactly its messages in arrival order. That the packets come as units of format I
on the link, from a source whose way is clear, is the model's choice (notes/assumptions/7.md); each takes one step
to be sent and one for each of its bytes. -/
def Obligations.MultiPacketReplyIsDeliveredInOrder : Prop :=
  ∀ (src : Addr) (msgs : List InnerMessage) (rest : List Stimulus) (tag : U15) (s : State),
    s.inputs = msgs.map (fun m => .word (.unit (.innerMessage src (innerUnit m)))) ++ rest →
    s.pend = ⟨true, .multi, tag⟩ → s.accExpected = none → s.accCollected = [] →
    (∀ c, s.cfg.accMaxPkts = some c → msgs.length ≤ c) →
    (∀ m ∈ msgs, wayIsClear src (pppBuild s.cfg.smaProtocolId (innerUnit m)) s) →
    (∀ m ∈ msgs, m.wf = true ∧ m.response = true ∧ m.tag.toNat = tag.toNat ∧ m.error = 0
      ∧ (m.to2 = s.localAddr2 ∨ m.to2 = s.cfg.bcast2)) →
    (∃ m, msgs.head? = some m ∧ m.first = true) →
    (∀ i m, msgs[i]? = some m → m.pktcount.toNat + i + 1 = msgs.length) →
    ∃ k, runFor k s = .next
      { s with inputs := rest, evq := s.evq ++ [.resultMulti msgs], pend := ⟨false, .multi, tag⟩,
               cst := .complete, accExpected := none, accCollected := [] }

/-- R3, R67, R165 (c), R184, R215, R244, from one block's SEND to another block's DISPATCH: the bytes that
SEND appends to TXQ, taken one a step by a block with the same carrier type and protocol whose buffers are
empty and whose secondary address (or `BCAST2`) the message is for, dispatch exactly the message sent. -/
def Obligations.SentMessageIsDispatchedByTheReceiver : Prop :=
  ∀ (m : InnerMessage) (s s' r : State) (frame : List Byte) (rest : List Stimulus), m.wf = true →
    exec (.send m none none none) s = .next s' → s'.txq = s.txq ++ frame → frame ≠ [] →
    r.cfg.smaProtocolId = s.cfg.smaProtocolId → r.cfg.otypePpp = s.cfg.otypePpp →
    r.ob = [] → rbWf r.rb = true → rbGet r.rb s.localAddr = [] → hasRoom s.localAddr r → fitsBuffer 94 r →
    (m.to2 = r.localAddr2 ∨ m.to2 = r.cfg.bcast2) →
    r.inputs = frame.map (fun b => .word (.rxByte b)) ++ rest →
    runFor frame.length r = .next (dispatch m { r with inputs := rest })

/-! ## The whole machine -/

/-- "do not crash or hang" (R377, R425): every instruction, with any operands in any state, completes; a
command leaves a response (R42), and nothing else touches the response port (the model's choice,
notes/assumptions/4.md). -/
def Obligations.EveryInstructionCompletes : Prop :=
  ∀ (i : Instr) (s : State), ∃ t, exec i s = .next t
    ∧ (isCommand i = true → t.resp.isSome = true) ∧ (isCommand i = false → t.resp = s.resp)

/-- R20, column "written by", with R24, R25, R31, R400: who may change which piece of state. The parameters are
changed by no instruction; the stimuli still to come only by a unit on the link, which puts its bytes before them
and touches nothing of the block (the model's own: notes/assumptions/1.md, 2.md, 7.md). -/
def Obligations.EachStateIsWrittenOnlyByItsWriters : Prop :=
  ∀ (i : Instr) (s t : State), exec i s = .next t →
    t.cfg = s.cfg ∧ (isUnit i = false → t.inputs = s.inputs) ∧ (isUnit i = true → ∃ bytes, t = arriving bytes s)
    ∧ (i ≠ .reset →
      ((∀ a, i ≠ .setaddr a) → t.localAddr = s.localAddr)
      ∧ ((∀ a, i ≠ .setaddr2 a) → t.localAddr2 = s.localAddr2)
      ∧ (i ≠ .tagalloc → (∀ m mode, i ≠ .request m mode) → t.tagctr = s.tagctr)
      ∧ (onReceivePath i = false → i ≠ .abort → (∀ tag mode, i ≠ .arm tag mode) → (∀ m mode, i ≠ .request m mode) →
          t.pend = s.pend ∧ t.cst = s.cst ∧ t.accExpected = s.accExpected ∧ t.accCollected = s.accCollected)
      ∧ (onReceivePath i = false → t.esr = s.esr)
      ∧ (takesRxBytes i = false → i ≠ .flush → t.ob = s.ob)
      ∧ (reachesPppRx i = false → i ≠ .flush → t.rb = s.rb)
      ∧ (onReceivePath i = false → i ≠ .abort → t.evq = s.evq)
      ∧ ((∀ m mode, i ≠ .request m mode) → (∀ m a b y, i ≠ .send m a b y) → t.txq = s.txq))

/-- R36, R40, R41, R70 (c), (d), R365, R367: no instruction but RESET takes anything out of EVQ or TXQ or
puts anything elsewhere than at the end, and `ESR` is always the bits it had and the bits of the error
events appended, by the tables of R361 and R362: no error is suppressed and none is reported twice. -/
def Obligations.QueuesGrowAndEsrSumsUpTheErrors : Prop :=
  ∀ (i : Instr) (s t : State), i ≠ .reset → exec i s = .next t →
    ∃ evs bytes, t.evq = s.evq ++ evs ∧ t.txq = s.txq ++ bytes ∧ t.esr = evs.foldl esrAfterEvent s.esr

/-- R273, R415: only a result, an error on the receive path, ABORT or RESET ends a wait, and the event that
says which is in EVQ, in agreement with `CST`. -/
def Obligations.EveryEndOfAWaitIsReported : Prop :=
  ∀ (i : Instr) (s t : State), i ≠ .reset → exec i s = .next t → s.pend.valid = true → t.pend.valid = false →
    ∃ evs, t.evq = s.evq ++ evs
      ∧ ((t.cst = .complete ∧ ∃ ev ∈ evs, isResult ev = true)
        ∨ (t.cst = .failed ∧ ∃ ev ∈ evs, isError ev = true)
        ∨ (t.cst = .idle ∧ i = .abort ∧ evs = [.aborted s.pend.tag]))

/-- R425: an RX_BYTE appends at most 47 events, at most one of them a result, whatever `N_SRC` is and for every
`PPP_BUF_MAX` that can hold a byte (R66 asks for 2054). -/
def Obligations.OneByteCausesAtMostFortySevenEvents : Prop :=
  ∀ (b : Byte) (s t : State), obInv s = true → rbInv s = true → s.cfg.pppBufMax ≠ some 0 →
    exec (.rxByte b) s = .next t →
    ∃ evs, t.evq = s.evq ++ evs ∧ evs.length ≤ 47 ∧ evs.countP isResult ≤ 1

/-- R15, R386 and the model's stimuli (notes/assumptions/2.md, 3.md, 6.md, 7.md, 10.md): a step takes the next
stimulus; a word that decodes to a well-formed instruction runs it on the state without that stimulus; a
command word that decodes to nothing is refused by name; every unit, also one that decodes to nothing, comes in
as bytes, an outer frame as its own; without a stimulus the state holds. -/
def Obligations.StepRunsTheDecodedInstruction : Prop :=
  ∀ (s : State) (p : Presented) (i : Instr) (w : List Byte) (u : WireUnit) (why : DecodeError) (n : Nat)
    (rest : List Stimulus),
    (s.inputs = .word p :: rest → decode p = .ok i → i.wf = true → step s = exec i { s with inputs := rest })
    ∧ (s.inputs = .word (.command w) :: rest → decode (.command w) = .error why →
        step s = .refused (.undecodable why))
    ∧ (s.inputs = .word (.unit u) :: rest → ∃ bytes, step s = .next (arriving bytes { s with inputs := rest })
        ∧ (u = .outerFrame w → bytes = w))
    ∧ (s.inputs = .takeEvents n :: rest → step s = .next { s with inputs := rest, evq := s.evq.drop n })
    ∧ (s.inputs = .takeTx n :: rest → step s = .next { s with inputs := rest, txq := s.txq.drop n })
    ∧ (s.inputs = [] → step s = .next s)

/-- R26, R30, R33, R34, R36, R48: every invariant holds right after reset, whatever the parameters. -/
def Obligations.ResetSatisfiesEveryInvariant : Prop :=
  ∀ (cfg : Config) (inputs : List Stimulus), inv (State.resetKeeping cfg inputs) = true ∧ inv State.reset = true

/-- R26, which the spec derives from R190: every step keeps the invariant of `OB`. -/
def Obligations.EveryStepKeepsTheOuterBufferInvariant : Prop :=
  ∀ (s t : State), obInv s = true → step s = .next t → obInv t = true

/-- R30, R36 and the capacities of R20 (the spec's decision D17): every step keeps the canonical form of `RB`,
non-empty buffers, no flag but at index 0, at most `N_SRC` entries and `PPP_BUF_MAX` bytes; and the
reserved bits of `ESR` stay 0. -/
def Obligations.EveryStepKeepsTheReassemblyInvariant : Prop :=
  ∀ (s t : State), step s = .next t → (rbInv s = true → rbInv t = true) ∧ (esrInv s = true → esrInv t = true)

/-- R34, with the agreement of `PEND` and `CST` (R33, the spec's decision D23), the bound by `ACC_MAX_PKTS`
(D27) and, the model's own strengthening, that every collected message belongs to the request: every step keeps
it; and in such a state no step reports InternalError(ACC_COUNT) (R304, which the spec derives; D36). -/
def Obligations.EveryStepKeepsTheCorrelationInvariant : Prop :=
  ∀ (s t : State), corrInv s = true → step s = .next t →
    corrInv t = true ∧ ∀ info, .error ⟨.accCount, info⟩ ∈ t.evq → .error ⟨.accCount, info⟩ ∈ s.evq

/-! ## Decoding -/

/-- R95, R100, R110, R130 with the model's packing of operands (notes/assumptions/5.md): some words written
out byte by byte decode to the instruction they stand for. -/
def Obligations.WrittenOutWordsDecode : Prop :=
  (∀ data, decode (.command (0x01 :: data)) = .ok (.escEnc data))
  ∧ decode (.command [0x41, 0x01, 0x02, 0x03, 0x04, 0x05, 0x06]) = .ok (.setaddr ⟨0x01, 0x02, 0x03, 0x04, 0x05, 0x06⟩)
  ∧ decode (.command [0x44, 0x12, 0x00, 0x01]) = .ok (.arm 0x0012 .multi)
  ∧ decode (.command [0x4A, 0x00]) = .ok (.illegal ⟨0x4A, [0x00]⟩)
  ∧ decode (.unit (.symbol (Addr.fill 1) [0x7D, 0x5E])) = .ok (.fmtEscapePair (Addr.fill 1) 0x5E)
  ∧ decode (.unit (.outerFrame [0x7E, 0x12, 0x00, 0x6C, 0x01, 0x02, 0x03, 0x04, 0x05, 0x06, 0xFF, 0xFF, 0xFF, 0xFF,
      0xFF, 0xFF, 0x02, 0x00])) = .ok (.fmtOuterFrame ⟨0x01, 0x02, 0x03, 0x04, 0x05, 0x06⟩ (Addr.fill 0xFF) 0x0002 [])

/-- Decoding the word of a well-formed instruction gives the instruction back, for every instruction that
has a word and every value of its operands (R130, R95, R100, R105, R110). -/
def Obligations.DecodeUndoesEncode : Prop :=
  ∀ (i : Instr) (p : Presented), i.wf = true → encode i = some p → decode p = .ok i

/-- A word that decodes stands for exactly one instruction, which is well formed and has that word: no bit
of a word is dropped. -/
def Obligations.EncodeUndoesDecode : Prop :=
  ∀ (i : Instr) (p : Presented), decode p = .ok i → i.wf = true ∧ encode i = some p
end

