-- ==== Sys2Proof/Laws/Bytes.lean ====
section
/-! SUPPORT. Laws of the byte order and the buffer primitives (spec/00_scope.md R11, spec/20_memory.md R61, R68). -/

namespace Sys2Proof.Machine
open Sys2Proof

/-- A little-endian encoding of `n` bytes has `n` bytes (R11). -/
@[simp] theorem leBytes_length (n v : Nat) : (leBytes n v).length = n := by
  induction n generalizing v with
  | zero => rfl
  | succ n ih => simp [leBytes, ih]

/-- Reading a little-endian encoding gives the low bits of the number (R11). -/
theorem leNat_leBytes (n v : Nat) : leNat (leBytes n v) = v % 256 ^ n := by
  induction n generalizing v with
  | zero => simp [leBytes, leNat, Nat.mod_one]
  | succ n ih =>
    simp only [leBytes, leNat, ih, BitVec.toNat_ofNat]
    exact (Nat.pow_succ' ▸ Nat.mod_mul (a := 256) : v % 256 ^ (n + 1) = _).symm

/-- A little-endian encoding of what was read gives the bytes back (R11). -/
theorem leBytes_leNat (bs : List Byte) : leBytes bs.length (leNat bs) = bs := by
  induction bs with
  | nil => rfl
  | cons b bs ih =>
    have h : (b.toNat + 256 * leNat bs) / 256 = leNat bs := by have := b.isLt; omega
    simp only [List.length_cons, leBytes, leNat, h, ih]
    congr 1
    apply BitVec.eq_of_toNat_eq
    simp only [BitVec.toNat_ofNat]
    have := b.isLt
    omega

/-- The integer of a byte string is below `256 ^ length`. -/
theorem leNat_lt (bs : List Byte) : leNat bs < 256 ^ bs.length := by
  induction bs with
  | nil => simp [leNat]
  | cons b bs ih =>
    simp only [leNat, List.length_cons, Nat.pow_succ]
    have := b.isLt
    omega

@[simp] theorem le16_length (v : U16) : (le16 v).length = 2 := leBytes_length 2 _

@[simp] theorem le32_length (v : U32) : (le32 v).length = 4 := leBytes_length 4 _

@[simp] theorem addr_bytes_length (a : Addr) : a.bytes.length = 6 := rfl

/-- The two bytes of `LE16(v)`. -/
theorem le16_eq (v : U16) : le16 v = [v.setWidth 8, (v >>> 8).setWidth 8] := by
  have h0 : BitVec.ofNat 8 v.toNat = v.setWidth 8 := by apply BitVec.eq_of_toNat_eq; simp
  have h1 : BitVec.ofNat 8 (v.toNat / 256) = (v >>> 8).setWidth 8 := by
    apply BitVec.eq_of_toNat_eq; simp [Nat.shiftRight_eq_div_pow]
  simp only [le16, leBytes, h0, h1]

/-- The four bytes of `LE32(v)`. -/
theorem le32_eq (v : U32) :
    le32 v = [v.setWidth 8, (v >>> 8).setWidth 8, (v >>> 16).setWidth 8, (v >>> 24).setWidth 8] := by
  have h0 : BitVec.ofNat 8 v.toNat = v.setWidth 8 := by apply BitVec.eq_of_toNat_eq; simp
  have h1 : BitVec.ofNat 8 (v.toNat / 256) = (v >>> 8).setWidth 8 := by
    apply BitVec.eq_of_toNat_eq; simp [Nat.shiftRight_eq_div_pow]
  have h2 : BitVec.ofNat 8 (v.toNat / 256 / 256) = (v >>> 16).setWidth 8 := by
    apply BitVec.eq_of_toNat_eq; simp [Nat.shiftRight_eq_div_pow, Nat.div_div_eq_div_mul]
  have h3 : BitVec.ofNat 8 (v.toNat / 256 / 256 / 256) = (v >>> 24).setWidth 8 := by
    apply BitVec.eq_of_toNat_eq; simp [Nat.shiftRight_eq_div_pow, Nat.div_div_eq_div_mul]
  simp only [le32, leBytes, h0, h1, h2, h3]

/-- The u16 of two bytes. -/
theorem ofNat_leNat_two (b0 b1 : Byte) : BitVec.ofNat 16 (leNat [b0, b1]) = b1 ++ b0 := by
  apply BitVec.eq_of_toNat_eq
  have h0 := b0.isLt
  have h1 := b1.isLt
  simp only [leNat, BitVec.toNat_ofNat, BitVec.toNat_append]
  rw [Nat.shiftLeft_eq, Nat.mul_comm _ (2 ^ 8), ← Nat.two_pow_add_eq_or_of_lt h0]
  omega

/-- The u32 of four bytes. -/
theorem ofNat_leNat_four (b0 b1 b2 b3 : Byte) :
    BitVec.ofNat 32 (leNat [b0, b1, b2, b3]) = (b3 ++ b2 ++ b1 ++ b0 : BitVec 32) := by
  apply BitVec.eq_of_toNat_eq
  have h0 := b0.isLt
  have h1 := b1.isLt
  have h2 := b2.isLt
  have h3 := b3.isLt
  simp only [leNat, BitVec.toNat_ofNat, BitVec.toNat_append]
  rw [Nat.shiftLeft_eq, Nat.shiftLeft_eq, Nat.shiftLeft_eq, Nat.mul_comm _ (2 ^ 8), Nat.mul_comm _ (2 ^ 8),
    Nat.mul_comm _ (2 ^ 8), ← Nat.two_pow_add_eq_or_of_lt h0, ← Nat.two_pow_add_eq_or_of_lt h1,
    ← Nat.two_pow_add_eq_or_of_lt h2]
  omega

/-- Reading the two bytes of `LE16(v)` gives `v`. -/
theorem ofNat_leNat_le16 (v : U16) : BitVec.ofNat 16 (leNat (le16 v)) = v := by
  rw [le16, leNat_leBytes]
  apply BitVec.eq_of_toNat_eq
  have := v.isLt
  simp only [BitVec.toNat_ofNat]
  omega

/-- Reading the four bytes of `LE32(v)` gives `v`. -/
theorem ofNat_leNat_le32 (v : U32) : BitVec.ofNat 32 (leNat (le32 v)) = v := by
  rw [le32, leNat_leBytes]
  apply BitVec.eq_of_toNat_eq
  have := v.isLt
  simp only [BitVec.toNat_ofNat]
  omega

/-- Reading what MemWrite wrote (R11). -/
theorem memRead_memWrite (buf : List Byte) (off n v : Nat) (h : off + n ≤ buf.length) :
    memRead (memWrite buf off n v) off n = v % 256 ^ n := by
  have : bytesAt (memWrite buf off n v) off n = leBytes n v := by
    have h1 : (buf.take off).length = off := by simp; omega
    simp only [bytesAt, memWrite, List.append_assoc]
    conv_lhs => rw [List.drop_append, h1]
    simp
  rw [memRead, this, leNat_leBytes]

/-- MemWrite leaves every byte outside its range alone (R11). -/
theorem byteAt_memWrite_other (buf : List Byte) (off n v i : Nat) (h : off + n ≤ buf.length)
    (hi : i < off ∨ off + n ≤ i) : byteAt (memWrite buf off n v) i = byteAt buf i := by
  have h1 : (buf.take off).length = off := by simp; omega
  simp only [byteAt, memWrite, List.append_assoc, List.getD_eq_getElem?_getD]
  congr 1
  rcases hi with hi | hi
  · rw [List.getElem?_append_left (by omega), List.getElem?_take_of_lt hi]
  · rw [List.getElem?_append_right (by omega), List.getElem?_append_right (by simp; omega)]
    simp only [h1, leBytes_length, List.getElem?_drop]
    congr 1
    omega

end Sys2Proof.Machine
end

