-- ==== Sys2Proof/Laws/Formats.lean ====
section
/-! SUPPORT. Units on the link: what a cut of a stuffed stream is, and what every unit's instruction does. -/

namespace Sys2Proof.Machine
open Sys2Proof

/-- A cut with enough fuel loses no byte, and its pieces are payloads that an outer frame can hold (R65, R92). -/
theorem cut_spec : ∀ (fuel : Nat) (stream : List Byte), stream.length ≤ fuel →
    (cut fuel stream).flatten = stream ∧ ∀ piece ∈ cut fuel stream, piece ≠ [] ∧ piece.length ≤ maxPayload
  | 0, stream, h => by
    rw [List.length_eq_zero_iff.1 (Nat.le_zero.1 h)]
    exact ⟨rfl, by simp [cut]⟩
  | fuel + 1, [], _ => ⟨rfl, by simp [cut]⟩
  | fuel + 1, b :: rest, h => by
    obtain ⟨hf, hp⟩ := cut_spec fuel ((b :: rest).drop maxPayload) (by simp [maxPayload] at h ⊢; omega)
    refine ⟨by rw [cut, List.flatten_cons, hf, List.take_append_drop], fun piece hm => ?_⟩
    rw [cut, List.mem_cons] at hm
    rcases hm with rfl | hm
    · exact ⟨by simp [maxPayload], by simp [maxPayload]⟩
    · exact hp piece hm

/-- A stream that one payload can hold is carried in one outer frame. -/
theorem carry_short {stream : List Byte} (cfg : Config) (src : Addr) (h : stream ≠ [])
    (hl : stream.length ≤ maxPayload) : carry cfg src stream = outerUnit src bcast cfg.otypePpp stream := by
  obtain ⟨b, rest, rfl⟩ := List.exists_cons_of_ne_nil h
  rw [carry, List.length_cons, cut, List.take_of_length_le hl, List.drop_of_length_le hl]
  cases rest.length <;> simp [cut]

/-- The instruction of a unit sends that unit, whichever of the five it is. -/
theorem exec_of_unit {i : Instr} {u : WireUnit} (h : encode i = some (.unit u)) (s : State) :
    exec i s = .next (sendUnit u s) := by
  cases i <;> simp [encode] at h <;> (subst h; rfl)

end Sys2Proof.Machine
end

