-- ==== Sys2Proof/Laws/State.lean ====
section
/-! SUPPORT. One lemma per field per update of `State`, each true by `rfl`, so that no later proof
unfolds a record update. -/

namespace Sys2Proof.Machine
open Sys2Proof

section
variable (a : Addr) (buf : List Byte) (s : State)

@[simp] theorem setRb_cfg : (setRb a buf s).cfg = s.cfg := rfl
@[simp] theorem setRb_localAddr : (setRb a buf s).localAddr = s.localAddr := rfl
@[simp] theorem setRb_localAddr2 : (setRb a buf s).localAddr2 = s.localAddr2 := rfl
@[simp] theorem setRb_tagctr : (setRb a buf s).tagctr = s.tagctr := rfl
@[simp] theorem setRb_pend : (setRb a buf s).pend = s.pend := rfl
@[simp] theorem setRb_cst : (setRb a buf s).cst = s.cst := rfl
@[simp] theorem setRb_accExpected : (setRb a buf s).accExpected = s.accExpected := rfl
@[simp] theorem setRb_accCollected : (setRb a buf s).accCollected = s.accCollected := rfl
@[simp] theorem setRb_esr : (setRb a buf s).esr = s.esr := rfl
@[simp] theorem setRb_ob : (setRb a buf s).ob = s.ob := rfl
@[simp] theorem setRb_rb : (setRb a buf s).rb = rbSet s.rb a buf := rfl
@[simp] theorem setRb_evq : (setRb a buf s).evq = s.evq := rfl
@[simp] theorem setRb_txq : (setRb a buf s).txq = s.txq := rfl
@[simp] theorem setRb_resp : (setRb a buf s).resp = s.resp := rfl
@[simp] theorem setRb_inputs : (setRb a buf s).inputs = s.inputs := rfl

end

section
variable (ev : Event) (s : State)

@[simp] theorem emit_cfg : (emit ev s).cfg = s.cfg := rfl
@[simp] theorem emit_localAddr : (emit ev s).localAddr = s.localAddr := rfl
@[simp] theorem emit_localAddr2 : (emit ev s).localAddr2 = s.localAddr2 := rfl
@[simp] theorem emit_tagctr : (emit ev s).tagctr = s.tagctr := rfl
@[simp] theorem emit_pend : (emit ev s).pend = s.pend := rfl
@[simp] theorem emit_cst : (emit ev s).cst = s.cst := rfl
@[simp] theorem emit_accExpected : (emit ev s).accExpected = s.accExpected := rfl
@[simp] theorem emit_accCollected : (emit ev s).accCollected = s.accCollected := rfl
@[simp] theorem emit_esr : (emit ev s).esr = s.esr := rfl
@[simp] theorem emit_ob : (emit ev s).ob = s.ob := rfl
@[simp] theorem emit_rb : (emit ev s).rb = s.rb := rfl
@[simp] theorem emit_evq : (emit ev s).evq = s.evq ++ [ev] := rfl
@[simp] theorem emit_txq : (emit ev s).txq = s.txq := rfl
@[simp] theorem emit_resp : (emit ev s).resp = s.resp := rfl
@[simp] theorem emit_inputs : (emit ev s).inputs = s.inputs := rfl

end

section
variable (bs : List Byte) (s : State)

@[simp] theorem transmit_cfg : (transmit bs s).cfg = s.cfg := rfl
@[simp] theorem transmit_localAddr : (transmit bs s).localAddr = s.localAddr := rfl
@[simp] theorem transmit_localAddr2 : (transmit bs s).localAddr2 = s.localAddr2 := rfl
@[simp] theorem transmit_tagctr : (transmit bs s).tagctr = s.tagctr := rfl
@[simp] theorem transmit_pend : (transmit bs s).pend = s.pend := rfl
@[simp] theorem transmit_cst : (transmit bs s).cst = s.cst := rfl
@[simp] theorem transmit_accExpected : (transmit bs s).accExpected = s.accExpected := rfl
@[simp] theorem transmit_accCollected : (transmit bs s).accCollected = s.accCollected := rfl
@[simp] theorem transmit_esr : (transmit bs s).esr = s.esr := rfl
@[simp] theorem transmit_ob : (transmit bs s).ob = s.ob := rfl
@[simp] theorem transmit_rb : (transmit bs s).rb = s.rb := rfl
@[simp] theorem transmit_evq : (transmit bs s).evq = s.evq := rfl
@[simp] theorem transmit_txq : (transmit bs s).txq = s.txq ++ bs := rfl
@[simp] theorem transmit_resp : (transmit bs s).resp = s.resp := rfl
@[simp] theorem transmit_inputs : (transmit bs s).inputs = s.inputs := rfl

end

section
variable (r : Response) (s : State)

@[simp] theorem respond_cfg : (respond r s).cfg = s.cfg := rfl
@[simp] theorem respond_localAddr : (respond r s).localAddr = s.localAddr := rfl
@[simp] theorem respond_localAddr2 : (respond r s).localAddr2 = s.localAddr2 := rfl
@[simp] theorem respond_tagctr : (respond r s).tagctr = s.tagctr := rfl
@[simp] theorem respond_pend : (respond r s).pend = s.pend := rfl
@[simp] theorem respond_cst : (respond r s).cst = s.cst := rfl
@[simp] theorem respond_accExpected : (respond r s).accExpected = s.accExpected := rfl
@[simp] theorem respond_accCollected : (respond r s).accCollected = s.accCollected := rfl
@[simp] theorem respond_esr : (respond r s).esr = s.esr := rfl
@[simp] theorem respond_ob : (respond r s).ob = s.ob := rfl
@[simp] theorem respond_rb : (respond r s).rb = s.rb := rfl
@[simp] theorem respond_evq : (respond r s).evq = s.evq := rfl
@[simp] theorem respond_txq : (respond r s).txq = s.txq := rfl
@[simp] theorem respond_resp : (respond r s).resp = some r := rfl
@[simp] theorem respond_inputs : (respond r s).inputs = s.inputs := rfl

end

section
variable (buf : List Byte) (s : State)

@[simp] theorem setOb_cfg : (setOb buf s).cfg = s.cfg := rfl
@[simp] theorem setOb_localAddr : (setOb buf s).localAddr = s.localAddr := rfl
@[simp] theorem setOb_localAddr2 : (setOb buf s).localAddr2 = s.localAddr2 := rfl
@[simp] theorem setOb_tagctr : (setOb buf s).tagctr = s.tagctr := rfl
@[simp] theorem setOb_pend : (setOb buf s).pend = s.pend := rfl
@[simp] theorem setOb_cst : (setOb buf s).cst = s.cst := rfl
@[simp] theorem setOb_accExpected : (setOb buf s).accExpected = s.accExpected := rfl
@[simp] theorem setOb_accCollected : (setOb buf s).accCollected = s.accCollected := rfl
@[simp] theorem setOb_esr : (setOb buf s).esr = s.esr := rfl
@[simp] theorem setOb_ob : (setOb buf s).ob = buf := rfl
@[simp] theorem setOb_rb : (setOb buf s).rb = s.rb := rfl
@[simp] theorem setOb_evq : (setOb buf s).evq = s.evq := rfl
@[simp] theorem setOb_txq : (setOb buf s).txq = s.txq := rfl
@[simp] theorem setOb_resp : (setOb buf s).resp = s.resp := rfl
@[simp] theorem setOb_inputs : (setOb buf s).inputs = s.inputs := rfl

end

section
variable (x : Option U17) (ms : List InnerMessage) (s : State)

@[simp] theorem setAcc_cfg : (setAcc x ms s).cfg = s.cfg := rfl
@[simp] theorem setAcc_localAddr : (setAcc x ms s).localAddr = s.localAddr := rfl
@[simp] theorem setAcc_localAddr2 : (setAcc x ms s).localAddr2 = s.localAddr2 := rfl
@[simp] theorem setAcc_tagctr : (setAcc x ms s).tagctr = s.tagctr := rfl
@[simp] theorem setAcc_pend : (setAcc x ms s).pend = s.pend := rfl
@[simp] theorem setAcc_cst : (setAcc x ms s).cst = s.cst := rfl
@[simp] theorem setAcc_accExpected : (setAcc x ms s).accExpected = x := rfl
@[simp] theorem setAcc_accCollected : (setAcc x ms s).accCollected = ms := rfl
@[simp] theorem setAcc_esr : (setAcc x ms s).esr = s.esr := rfl
@[simp] theorem setAcc_ob : (setAcc x ms s).ob = s.ob := rfl
@[simp] theorem setAcc_rb : (setAcc x ms s).rb = s.rb := rfl
@[simp] theorem setAcc_evq : (setAcc x ms s).evq = s.evq := rfl
@[simp] theorem setAcc_txq : (setAcc x ms s).txq = s.txq := rfl
@[simp] theorem setAcc_resp : (setAcc x ms s).resp = s.resp := rfl
@[simp] theorem setAcc_inputs : (setAcc x ms s).inputs = s.inputs := rfl

end

section
variable (c : Cst) (s : State)

@[simp] theorem closeWait_cfg : (closeWait c s).cfg = s.cfg := rfl
@[simp] theorem closeWait_localAddr : (closeWait c s).localAddr = s.localAddr := rfl
@[simp] theorem closeWait_localAddr2 : (closeWait c s).localAddr2 = s.localAddr2 := rfl
@[simp] theorem closeWait_tagctr : (closeWait c s).tagctr = s.tagctr := rfl
@[simp] theorem closeWait_pend : (closeWait c s).pend = { s.pend with valid := false } := rfl
@[simp] theorem closeWait_cst : (closeWait c s).cst = c := rfl
@[simp] theorem closeWait_accExpected : (closeWait c s).accExpected = s.accExpected := rfl
@[simp] theorem closeWait_accCollected : (closeWait c s).accCollected = s.accCollected := rfl
@[simp] theorem closeWait_esr : (closeWait c s).esr = s.esr := rfl
@[simp] theorem closeWait_ob : (closeWait c s).ob = s.ob := rfl
@[simp] theorem closeWait_rb : (closeWait c s).rb = s.rb := rfl
@[simp] theorem closeWait_evq : (closeWait c s).evq = s.evq := rfl
@[simp] theorem closeWait_txq : (closeWait c s).txq = s.txq := rfl
@[simp] theorem closeWait_resp : (closeWait c s).resp = s.resp := rfl
@[simp] theorem closeWait_inputs : (closeWait c s).inputs = s.inputs := rfl

end

section
variable (m : Mode) (t : U15) (s : State)

@[simp] theorem openWait_cfg : (openWait m t s).cfg = s.cfg := rfl
@[simp] theorem openWait_localAddr : (openWait m t s).localAddr = s.localAddr := rfl
@[simp] theorem openWait_localAddr2 : (openWait m t s).localAddr2 = s.localAddr2 := rfl
@[simp] theorem openWait_tagctr : (openWait m t s).tagctr = s.tagctr := rfl
@[simp] theorem openWait_pend : (openWait m t s).pend = ⟨true, m, t⟩ := rfl
@[simp] theorem openWait_cst : (openWait m t s).cst = .awaitingFirst := rfl
@[simp] theorem openWait_accExpected : (openWait m t s).accExpected = none := rfl
@[simp] theorem openWait_accCollected : (openWait m t s).accCollected = [] := rfl
@[simp] theorem openWait_esr : (openWait m t s).esr = s.esr := rfl
@[simp] theorem openWait_ob : (openWait m t s).ob = s.ob := rfl
@[simp] theorem openWait_rb : (openWait m t s).rb = s.rb := rfl
@[simp] theorem openWait_evq : (openWait m t s).evq = s.evq := rfl
@[simp] theorem openWait_txq : (openWait m t s).txq = s.txq := rfl
@[simp] theorem openWait_resp : (openWait m t s).resp = s.resp := rfl
@[simp] theorem openWait_inputs : (openWait m t s).inputs = s.inputs := rfl

end

section
variable (k : ErrKind) (s : State)

@[simp] theorem markEsr_cfg : (markEsr k s).cfg = s.cfg := rfl
@[simp] theorem markEsr_localAddr : (markEsr k s).localAddr = s.localAddr := rfl
@[simp] theorem markEsr_localAddr2 : (markEsr k s).localAddr2 = s.localAddr2 := rfl
@[simp] theorem markEsr_tagctr : (markEsr k s).tagctr = s.tagctr := rfl
@[simp] theorem markEsr_pend : (markEsr k s).pend = s.pend := rfl
@[simp] theorem markEsr_cst : (markEsr k s).cst = s.cst := rfl
@[simp] theorem markEsr_accExpected : (markEsr k s).accExpected = s.accExpected := rfl
@[simp] theorem markEsr_accCollected : (markEsr k s).accCollected = s.accCollected := rfl
@[simp] theorem markEsr_esr : (markEsr k s).esr = esrWith s.esr k := rfl
@[simp] theorem markEsr_ob : (markEsr k s).ob = s.ob := rfl
@[simp] theorem markEsr_rb : (markEsr k s).rb = s.rb := rfl
@[simp] theorem markEsr_evq : (markEsr k s).evq = s.evq := rfl
@[simp] theorem markEsr_txq : (markEsr k s).txq = s.txq := rfl
@[simp] theorem markEsr_resp : (markEsr k s).resp = s.resp := rfl
@[simp] theorem markEsr_inputs : (markEsr k s).inputs = s.inputs := rfl

end

section
variable (r : List Stimulus) (s : State)

@[simp] theorem setInputs_cfg : (setInputs r s).cfg = s.cfg := rfl
@[simp] theorem setInputs_localAddr : (setInputs r s).localAddr = s.localAddr := rfl
@[simp] theorem setInputs_localAddr2 : (setInputs r s).localAddr2 = s.localAddr2 := rfl
@[simp] theorem setInputs_tagctr : (setInputs r s).tagctr = s.tagctr := rfl
@[simp] theorem setInputs_pend : (setInputs r s).pend = s.pend := rfl
@[simp] theorem setInputs_cst : (setInputs r s).cst = s.cst := rfl
@[simp] theorem setInputs_accExpected : (setInputs r s).accExpected = s.accExpected := rfl
@[simp] theorem setInputs_accCollected : (setInputs r s).accCollected = s.accCollected := rfl
@[simp] theorem setInputs_esr : (setInputs r s).esr = s.esr := rfl
@[simp] theorem setInputs_ob : (setInputs r s).ob = s.ob := rfl
@[simp] theorem setInputs_rb : (setInputs r s).rb = s.rb := rfl
@[simp] theorem setInputs_evq : (setInputs r s).evq = s.evq := rfl
@[simp] theorem setInputs_txq : (setInputs r s).txq = s.txq := rfl
@[simp] theorem setInputs_resp : (setInputs r s).resp = s.resp := rfl
@[simp] theorem setInputs_inputs : (setInputs r s).inputs = r := rfl

end

section
variable (p : Presented) (s : State)

@[simp] theorem present_cfg : (present p s).cfg = s.cfg := rfl
@[simp] theorem present_localAddr : (present p s).localAddr = s.localAddr := rfl
@[simp] theorem present_localAddr2 : (present p s).localAddr2 = s.localAddr2 := rfl
@[simp] theorem present_tagctr : (present p s).tagctr = s.tagctr := rfl
@[simp] theorem present_pend : (present p s).pend = s.pend := rfl
@[simp] theorem present_cst : (present p s).cst = s.cst := rfl
@[simp] theorem present_accExpected : (present p s).accExpected = s.accExpected := rfl
@[simp] theorem present_accCollected : (present p s).accCollected = s.accCollected := rfl
@[simp] theorem present_esr : (present p s).esr = s.esr := rfl
@[simp] theorem present_ob : (present p s).ob = s.ob := rfl
@[simp] theorem present_rb : (present p s).rb = s.rb := rfl
@[simp] theorem present_evq : (present p s).evq = s.evq := rfl
@[simp] theorem present_txq : (present p s).txq = s.txq := rfl
@[simp] theorem present_resp : (present p s).resp = s.resp := rfl
@[simp] theorem present_inputs : (present p s).inputs = .word p :: s.inputs := rfl

end

section
variable (bs : List Byte) (s : State)

@[simp] theorem arrive_cfg : (arrive bs s).cfg = s.cfg := rfl
@[simp] theorem arrive_localAddr : (arrive bs s).localAddr = s.localAddr := rfl
@[simp] theorem arrive_localAddr2 : (arrive bs s).localAddr2 = s.localAddr2 := rfl
@[simp] theorem arrive_tagctr : (arrive bs s).tagctr = s.tagctr := rfl
@[simp] theorem arrive_pend : (arrive bs s).pend = s.pend := rfl
@[simp] theorem arrive_cst : (arrive bs s).cst = s.cst := rfl
@[simp] theorem arrive_accExpected : (arrive bs s).accExpected = s.accExpected := rfl
@[simp] theorem arrive_accCollected : (arrive bs s).accCollected = s.accCollected := rfl
@[simp] theorem arrive_esr : (arrive bs s).esr = s.esr := rfl
@[simp] theorem arrive_ob : (arrive bs s).ob = s.ob := rfl
@[simp] theorem arrive_rb : (arrive bs s).rb = s.rb := rfl
@[simp] theorem arrive_evq : (arrive bs s).evq = s.evq := rfl
@[simp] theorem arrive_txq : (arrive bs s).txq = s.txq := rfl
@[simp] theorem arrive_resp : (arrive bs s).resp = s.resp := rfl
@[simp] theorem arrive_inputs : (arrive bs s).inputs = bs.map (fun b => .word (.rxByte b)) ++ s.inputs := rfl

end

section
variable (u : WireUnit) (s : State)

@[simp] theorem sendUnit_cfg : (sendUnit u s).cfg = s.cfg := rfl
@[simp] theorem sendUnit_localAddr : (sendUnit u s).localAddr = s.localAddr := rfl
@[simp] theorem sendUnit_localAddr2 : (sendUnit u s).localAddr2 = s.localAddr2 := rfl
@[simp] theorem sendUnit_tagctr : (sendUnit u s).tagctr = s.tagctr := rfl
@[simp] theorem sendUnit_pend : (sendUnit u s).pend = s.pend := rfl
@[simp] theorem sendUnit_cst : (sendUnit u s).cst = s.cst := rfl
@[simp] theorem sendUnit_accExpected : (sendUnit u s).accExpected = s.accExpected := rfl
@[simp] theorem sendUnit_accCollected : (sendUnit u s).accCollected = s.accCollected := rfl
@[simp] theorem sendUnit_esr : (sendUnit u s).esr = s.esr := rfl
@[simp] theorem sendUnit_ob : (sendUnit u s).ob = s.ob := rfl
@[simp] theorem sendUnit_rb : (sendUnit u s).rb = s.rb := rfl
@[simp] theorem sendUnit_evq : (sendUnit u s).evq = s.evq := rfl
@[simp] theorem sendUnit_txq : (sendUnit u s).txq = s.txq := rfl
@[simp] theorem sendUnit_resp : (sendUnit u s).resp = s.resp := rfl
@[simp] theorem sendUnit_inputs : (sendUnit u s).inputs = (linkBytes s.cfg u).map (fun b => .word (.rxByte b)) ++ s.inputs := rfl

end

section
variable (n : Nat) (s : State)

@[simp] theorem takeEvents_cfg : (takeEvents n s).cfg = s.cfg := rfl
@[simp] theorem takeEvents_localAddr : (takeEvents n s).localAddr = s.localAddr := rfl
@[simp] theorem takeEvents_localAddr2 : (takeEvents n s).localAddr2 = s.localAddr2 := rfl
@[simp] theorem takeEvents_tagctr : (takeEvents n s).tagctr = s.tagctr := rfl
@[simp] theorem takeEvents_pend : (takeEvents n s).pend = s.pend := rfl
@[simp] theorem takeEvents_cst : (takeEvents n s).cst = s.cst := rfl
@[simp] theorem takeEvents_accExpected : (takeEvents n s).accExpected = s.accExpected := rfl
@[simp] theorem takeEvents_accCollected : (takeEvents n s).accCollected = s.accCollected := rfl
@[simp] theorem takeEvents_esr : (takeEvents n s).esr = s.esr := rfl
@[simp] theorem takeEvents_ob : (takeEvents n s).ob = s.ob := rfl
@[simp] theorem takeEvents_rb : (takeEvents n s).rb = s.rb := rfl
@[simp] theorem takeEvents_evq : (takeEvents n s).evq = s.evq.drop n := rfl
@[simp] theorem takeEvents_txq : (takeEvents n s).txq = s.txq := rfl
@[simp] theorem takeEvents_resp : (takeEvents n s).resp = s.resp := rfl
@[simp] theorem takeEvents_inputs : (takeEvents n s).inputs = s.inputs := rfl

end

section
variable (n : Nat) (s : State)

@[simp] theorem takeTx_cfg : (takeTx n s).cfg = s.cfg := rfl
@[simp] theorem takeTx_localAddr : (takeTx n s).localAddr = s.localAddr := rfl
@[simp] theorem takeTx_localAddr2 : (takeTx n s).localAddr2 = s.localAddr2 := rfl
@[simp] theorem takeTx_tagctr : (takeTx n s).tagctr = s.tagctr := rfl
@[simp] theorem takeTx_pend : (takeTx n s).pend = s.pend := rfl
@[simp] theorem takeTx_cst : (takeTx n s).cst = s.cst := rfl
@[simp] theorem takeTx_accExpected : (takeTx n s).accExpected = s.accExpected := rfl
@[simp] theorem takeTx_accCollected : (takeTx n s).accCollected = s.accCollected := rfl
@[simp] theorem takeTx_esr : (takeTx n s).esr = s.esr := rfl
@[simp] theorem takeTx_ob : (takeTx n s).ob = s.ob := rfl
@[simp] theorem takeTx_rb : (takeTx n s).rb = s.rb := rfl
@[simp] theorem takeTx_evq : (takeTx n s).evq = s.evq := rfl
@[simp] theorem takeTx_txq : (takeTx n s).txq = s.txq.drop n := rfl
@[simp] theorem takeTx_resp : (takeTx n s).resp = s.resp := rfl
@[simp] theorem takeTx_inputs : (takeTx n s).inputs = s.inputs := rfl

end

section
variable (s : State)

@[simp] theorem resetBlock_cfg : (resetBlock s).cfg = s.cfg := rfl
@[simp] theorem resetBlock_localAddr : (resetBlock s).localAddr = s.cfg.localAddrReset := rfl
@[simp] theorem resetBlock_localAddr2 : (resetBlock s).localAddr2 = s.cfg.localAddr2Reset := rfl
@[simp] theorem resetBlock_tagctr : (resetBlock s).tagctr = s.cfg.tagReset := rfl
@[simp] theorem resetBlock_pend : (resetBlock s).pend = ⟨false, .single, 0⟩ := rfl
@[simp] theorem resetBlock_cst : (resetBlock s).cst = .idle := rfl
@[simp] theorem resetBlock_accExpected : (resetBlock s).accExpected = none := rfl
@[simp] theorem resetBlock_accCollected : (resetBlock s).accCollected = [] := rfl
@[simp] theorem resetBlock_esr : (resetBlock s).esr = 0 := rfl
@[simp] theorem resetBlock_ob : (resetBlock s).ob = [] := rfl
@[simp] theorem resetBlock_rb : (resetBlock s).rb = [] := rfl
@[simp] theorem resetBlock_evq : (resetBlock s).evq = [] := rfl
@[simp] theorem resetBlock_txq : (resetBlock s).txq = [] := rfl
@[simp] theorem resetBlock_resp : (resetBlock s).resp = none := rfl
@[simp] theorem resetBlock_inputs : (resetBlock s).inputs = s.inputs := rfl

end

end Sys2Proof.Machine
end

