-- ==== Sys2Proof/Laws/Ops.lean ====
section
/-! SUPPORT. What each shared operation of Machine/Ops.lean and Machine/Commands.lean does, said once, for the provers to
cite instead of unfolding it. -/

namespace Sys2Proof.Machine
open Sys2Proof

/-! ## What each shared operation does, once -/

/-- `setRb`, all of it. -/
theorem setRb_eq (a : Addr) (buf : List Byte) (s : State) : setRb a buf s = { s with rb := rbSet s.rb a buf } := rfl

/-- `emit`, all of it. -/
theorem emit_eq (ev : Event) (s : State) : emit ev s = { s with evq := s.evq ++ [ev] } := rfl

/-- `transmit`, all of it. -/
theorem transmit_eq (bs : List Byte) (s : State) : transmit bs s = { s with txq := s.txq ++ bs } := rfl

/-- `respond`, all of it. -/
theorem respond_eq (r : Response) (s : State) : respond r s = { s with resp := some r } := rfl

/-- `closeWait`, all of it: the mode and the tag of the request stay (R32). -/
theorem closeWait_eq (c : Cst) (s : State) :
    closeWait c s = { s with pend := ⟨false, s.pend.mode, s.pend.tag⟩, cst := c } := rfl

/-- `openWait`, all of it. -/
theorem openWait_eq (mode : Mode) (tag : U15) (s : State) :
    openWait mode tag s
      = { s with pend := ⟨true, mode, tag⟩, cst := .awaitingFirst, accExpected := none, accCollected := [] } := rfl

/-- RAISE during a wait (R365), in the order of the updates. -/
theorem raise_of_pending {e : Err} {s : State} (h : s.pend.valid = true) :
    raise e s = setAcc none [] (closeWait .failed (markEsr (causeKind e.cause) (emit (.error e) s))) := by
  simp [raise, h]

/-- RAISE with nothing pending (R365). -/
theorem raise_of_idle {e : Err} {s : State} (h : s.pend.valid = false) :
    raise e s = markEsr (causeKind e.cause) (emit (.error e) s) := by
  simp [raise, h]

@[simp] theorem raise_evq (e : Err) (s : State) : (raise e s).evq = s.evq ++ [.error e] := by
  unfold raise; dsimp only; split <;> rfl

@[simp] theorem raise_esr (e : Err) (s : State) : (raise e s).esr = esrWith s.esr (causeKind e.cause) := by
  unfold raise; dsimp only; split <;> rfl

/-- No wait is pending after RAISE (R273, R365). -/
@[simp] theorem raise_pend_valid (e : Err) (s : State) : (raise e s).pend.valid = false := by
  unfold raise; dsimp only
  split
  · rfl
  · next h => simpa using h

/-- RAISE keeps the mode and the tag of the request (R32). -/
@[simp] theorem raise_pend_mode (e : Err) (s : State) : (raise e s).pend.mode = s.pend.mode := by
  unfold raise; dsimp only; split <;> rfl

@[simp] theorem raise_pend_tag (e : Err) (s : State) : (raise e s).pend.tag = s.pend.tag := by
  unfold raise; dsimp only; split <;> rfl

/-- A command outside a wait has its effect. -/
theorem unlessBusy_of_idle {f : State → Out} {s : State} (h : s.pend.valid = false) : unlessBusy f s = f s := by
  simp [unlessBusy, h]

/-- A command that a wait refuses (R321). -/
theorem unlessBusy_of_pending {f : State → Out} {s : State} (h : s.pend.valid = true) :
    unlessBusy f s = .next (respond (.err (busyError s)) s) := by
  simp [unlessBusy, h, answer]

/-! ## What RAISE leaves alone (R365) -/


@[simp] theorem raise_cfg (e : Err) (s : State) : (raise e s).cfg = s.cfg := by
  unfold raise; dsimp only; split <;> rfl

@[simp] theorem raise_localAddr (e : Err) (s : State) : (raise e s).localAddr = s.localAddr := by
  unfold raise; dsimp only; split <;> rfl

@[simp] theorem raise_localAddr2 (e : Err) (s : State) : (raise e s).localAddr2 = s.localAddr2 := by
  unfold raise; dsimp only; split <;> rfl

@[simp] theorem raise_tagctr (e : Err) (s : State) : (raise e s).tagctr = s.tagctr := by
  unfold raise; dsimp only; split <;> rfl

@[simp] theorem raise_txq (e : Err) (s : State) : (raise e s).txq = s.txq := by
  unfold raise; dsimp only; split <;> rfl

@[simp] theorem raise_resp (e : Err) (s : State) : (raise e s).resp = s.resp := by
  unfold raise; dsimp only; split <;> rfl

@[simp] theorem raise_inputs (e : Err) (s : State) : (raise e s).inputs = s.inputs := by
  unfold raise; dsimp only; split <;> rfl

@[simp] theorem raise_ob (e : Err) (s : State) : (raise e s).ob = s.ob := by
  unfold raise; dsimp only; split <;> rfl

@[simp] theorem raise_rb (e : Err) (s : State) : (raise e s).rb = s.rb := by
  unfold raise; dsimp only; split <;> rfl

end Sys2Proof.Machine
end

