-- ==== Sys2Proof/Laws/PerInstr.lean ====
section
/-! SUPPORT. The family HasWord, one lemma per constructor of `Instr`: which instructions have a
word (spec/opcode_table.json; spec/00_scope.md R7). -/

namespace Sys2Proof.Laws.HasWord
open Sys2Proof

/-- The six sub-steps of RX_BYTE that are "not separately invocable" (R7). -/
def internalStep (i : Instr) : Bool :=
  match i with
  | .outerDeliver _ | .pppRx _ _ | .innerRx _ _ | .dispatch _ | .accStep _ | .raise _ => true
  | _ => false

/-- An instruction has a word exactly when it is no internal sub-step. -/
def Statement (i : Instr) : Prop := (encode i).isSome = !internalStep i

theorem escEnc (data : List Byte) : Statement (.escEnc data) := rfl
theorem escDec (body : List Byte) : Statement (.escDec body) := rfl
theorem stuff (frame : List Byte) : Statement (.stuff frame) := rfl
theorem destuff (raw : List Byte) : Statement (.destuff raw) := rfl
theorem crc16 (data : List Byte) : Statement (.crc16 data) := rfl
theorem crcAppend (data : List Byte) : Statement (.crcAppend data) := rfl
theorem crcCheck (frame : List Byte) : Statement (.crcCheck frame) := rfl
theorem outerParse (buf : List Byte) : Statement (.outerParse buf) := rfl
theorem outerBuild (src dst : Addr) (typ : U16) (payload : List Byte) : Statement (.outerBuild src dst typ payload) := rfl
theorem outerFilter (dst : Addr) : Statement (.outerFilter dst) := rfl
theorem pppExtract (raw : List Byte) : Statement (.pppExtract raw) := rfl
theorem pppBuild (protocol : U16) (body : List Byte) : Statement (.pppBuild protocol body) := rfl
theorem innerParse (body : List Byte) : Statement (.innerParse body) := rfl
theorem innerBuild (msg : InnerMessage) : Statement (.innerBuild msg) := rfl
theorem innerFilter (to2 : Addr) : Statement (.innerFilter to2) := rfl
theorem reset : Statement .reset := rfl
theorem setaddr (addr : Addr) : Statement (.setaddr addr) := rfl
theorem setaddr2 (addr : Addr) : Statement (.setaddr2 addr) := rfl
theorem tagalloc : Statement .tagalloc := rfl
theorem arm (tag : U16) (mode : Mode) : Statement (.arm tag mode) := rfl
theorem send (msg : InnerMessage) (src dst : Option Addr) (typ : Option U16) : Statement (.send msg src dst typ) := rfl
theorem request (msg : InnerMessage) (mode : Mode) : Statement (.request msg mode) := rfl
theorem abort : Statement .abort := rfl
theorem flush : Statement .flush := rfl
theorem rdreg (reg : Byte) : Statement (.rdreg reg) := rfl
theorem illegal (word : UnassignedWord) : Statement (.illegal word) := rfl
theorem rxByte (b : Byte) : Statement (.rxByte b) := rfl
theorem outerDeliver (frame : List Byte) : Statement (.outerDeliver frame) := rfl
theorem pppRx (src : Addr) (payload : List Byte) : Statement (.pppRx src payload) := rfl
theorem innerRx (protocol : U16) (body : List Byte) : Statement (.innerRx protocol body) := rfl
theorem dispatch (msg : InnerMessage) : Statement (.dispatch msg) := rfl
theorem accStep (msg : InnerMessage) : Statement (.accStep msg) := rfl
theorem raise (e : Err) : Statement (.raise e) := rfl
theorem fmtEscapePair (src : Addr) (v : Byte) : Statement (.fmtEscapePair src v) := rfl
theorem fmtFlag (src : Addr) : Statement (.fmtFlag src) := rfl
theorem fmtOuterFrame (src dst : Addr) (typ : U16) (payload : List Byte) : Statement (.fmtOuterFrame src dst typ payload) := rfl
theorem fmtPppFrame (src : Addr) (protocol : U16) (body : List Byte) : Statement (.fmtPppFrame src protocol body) := rfl
theorem fmtInnerMessage (msg : SentMessage) : Statement (.fmtInnerMessage msg) := rfl

end Sys2Proof.Laws.HasWord
end

