-- ==== Sys2Proof/Laws/Reassembly.lean ====
section
/-! SUPPORT. Laws of the reassembly table `RB` (spec/10_state.md R30): read after write, and every operation keeps the
canonical form. -/

namespace Sys2Proof.Machine
open Sys2Proof

/-- The order of the reassembly table tells addresses apart. -/
theorem addrKey_inj {a b : Addr} (h : addrKey a = addrKey b) : a = b := by
  obtain ⟨a0, a1, a2, a3, a4, a5⟩ := a
  obtain ⟨b0, b1, b2, b3, b4, b5⟩ := b
  simp only [addrKey] at h
  have := a0.isLt; have := a1.isLt; have := a2.isLt; have := a3.isLt; have := a4.isLt; have := a5.isLt
  have := b0.isLt; have := b1.isLt; have := b2.isLt; have := b3.isLt; have := b4.isLt; have := b5.isLt
  simp only [Addr.mk.injEq]
  refine ⟨?_, ?_, ?_, ?_, ?_, ?_⟩ <;> apply BitVec.eq_of_toNat_eq <;> omega

/-- The canonical form, entry by entry: the first buffer is not empty, the first key is below every other
key, and the rest is in canonical form. -/
theorem rbWf_cons (k : Addr) (buf : List Byte) (rest : List (Addr × List Byte)) :
    rbWf ((k, buf) :: rest) = true ↔
      buf ≠ [] ∧ (∀ p ∈ rest, addrKey k < addrKey p.1) ∧ rbWf rest = true := by
  induction rest generalizing k buf with
  | nil => simp [rbWf]
  | cons p rest ih =>
    obtain ⟨k', buf'⟩ := p
    simp only [rbWf, Bool.and_eq_true, decide_eq_true_eq, Bool.not_eq_true', List.isEmpty_eq_false_iff,
      List.mem_cons, forall_eq_or_imp]
    constructor
    · rintro ⟨⟨hb, hk⟩, hw⟩
      exact ⟨hb, ⟨hk, fun q hq => lt_trans hk (((ih k' buf').1 hw).2.1 q hq)⟩, hw⟩
    · rintro ⟨hb, ⟨hk, -⟩, hw⟩
      exact ⟨⟨hb, hk⟩, hw⟩

@[simp] theorem rbWf_nil : rbWf [] = true := rfl

/-- An address that is no key reads as the empty string (R12, R30). -/
theorem rbGet_eq_nil_of_forall_ne {rb : List (Addr × List Byte)} {a : Addr} (h : ∀ p ∈ rb, p.1 ≠ a) :
    rbGet rb a = [] := by
  induction rb with
  | nil => rfl
  | cons p rest ih =>
    obtain ⟨k, buf⟩ := p
    simp only [List.mem_cons, forall_eq_or_imp] at h
    simp [rbGet, h.1, ih h.2]

/-- In a canonical table an address reads as the empty string exactly when it is no key (R30). -/
theorem rbGet_eq_nil_iff {rb : List (Addr × List Byte)} (h : rbWf rb = true) (a : Addr) :
    rbGet rb a = [] ↔ ∀ p ∈ rb, p.1 ≠ a := by
  induction rb with
  | nil => simp [rbGet]
  | cons p rest ih =>
    obtain ⟨k, buf⟩ := p
    obtain ⟨hb, -, hw⟩ := (rbWf_cons k buf rest).1 h
    by_cases hk : k = a
    · simp [rbGet, hk, hb]
    · simp [rbGet, hk, ih hw]

/-- Keys and buffers of a table after an insertion come from the table or are the ones inserted. -/
theorem mem_rbInsert {rb : List (Addr × List Byte)} {a : Addr} {buf : List Byte} {p : Addr × List Byte}
    (h : p ∈ rbInsert rb a buf) : p = (a, buf) ∨ p ∈ rb := by
  induction rb with
  | nil => simpa [rbInsert] using h
  | cons q rest ih =>
    obtain ⟨k, old⟩ := q
    simp only [rbInsert] at h
    split_ifs at h with h1 h2
    · simp only [List.mem_cons] at h ⊢; tauto
    · simp only [List.mem_cons] at h ⊢; tauto
    · simp only [List.mem_cons] at h ⊢
      rcases h with h | h
      · exact .inr (.inl h)
      · rcases ih h with h | h <;> tauto

/-- Entries of a table after a removal come from the table. -/
theorem mem_rbErase {rb : List (Addr × List Byte)} {a : Addr} {p : Addr × List Byte}
    (h : p ∈ rbErase rb a) : p ∈ rb := by
  induction rb with
  | nil => exact h
  | cons q rest ih =>
    obtain ⟨k, old⟩ := q
    simp only [rbErase] at h
    split_ifs at h with h1
    · exact List.mem_cons_of_mem _ h
    · rcases List.mem_cons.1 h with h | h
      · exact h ▸ List.mem_cons_self
      · exact List.mem_cons_of_mem _ (ih h)

/-- Inserting a non-empty buffer keeps the canonical form. -/
theorem rbInsert_wf {rb : List (Addr × List Byte)} (h : rbWf rb = true) (a : Addr) {buf : List Byte}
    (hb : buf ≠ []) : rbWf (rbInsert rb a buf) = true := by
  induction rb with
  | nil => simpa [rbInsert, rbWf] using hb
  | cons q rest ih =>
    obtain ⟨k, old⟩ := q
    obtain ⟨ho, hk, hw⟩ := (rbWf_cons k old rest).1 h
    simp only [rbInsert]
    split_ifs with h1 h2
    · subst h1; exact (rbWf_cons _ _ _).2 ⟨hb, hk, hw⟩
    · refine (rbWf_cons _ _ _).2 ⟨hb, ?_, h⟩
      intro p hp
      rcases List.mem_cons.1 hp with rfl | hp
      · exact h2
      · exact lt_trans h2 (hk p hp)
    · refine (rbWf_cons _ _ _).2 ⟨ho, ?_, ih hw⟩
      intro p hp
      rcases mem_rbInsert hp with rfl | hp
      · have : addrKey k ≠ addrKey a := fun e => h1 (addrKey_inj e)
        show addrKey k < addrKey a
        omega
      · exact hk p hp

/-- Removing an entry keeps the canonical form. -/
theorem rbErase_wf {rb : List (Addr × List Byte)} (h : rbWf rb = true) (a : Addr) :
    rbWf (rbErase rb a) = true := by
  induction rb with
  | nil => rfl
  | cons q rest ih =>
    obtain ⟨k, old⟩ := q
    obtain ⟨ho, hk, hw⟩ := (rbWf_cons k old rest).1 h
    simp only [rbErase]
    split_ifs with h1
    · exact hw
    · exact (rbWf_cons _ _ _).2 ⟨ho, fun p hp => hk p (mem_rbErase hp), ih hw⟩

/-- Every write of the table keeps its canonical form (R30). -/
theorem rbSet_wf {rb : List (Addr × List Byte)} (h : rbWf rb = true) (a : Addr) (buf : List Byte) :
    rbWf (rbSet rb a buf) = true := by
  cases buf with
  | nil => exact rbErase_wf h a
  | cons b bs => exact rbInsert_wf h a (by simp)

theorem rbGet_rbInsert_same (rb : List (Addr × List Byte)) (a : Addr) (buf : List Byte) :
    rbGet (rbInsert rb a buf) a = buf := by
  induction rb with
  | nil => simp [rbInsert, rbGet]
  | cons q rest ih =>
    obtain ⟨k, old⟩ := q
    simp only [rbInsert]
    split_ifs with h1 h2
    · simp [rbGet]
    · simp [rbGet]
    · simp [rbGet, h1, ih]

theorem rbGet_rbInsert_other (rb : List (Addr × List Byte)) {a c : Addr} (buf : List Byte) (hc : c ≠ a) :
    rbGet (rbInsert rb a buf) c = rbGet rb c := by
  induction rb with
  | nil => simp [rbInsert, rbGet, hc.symm]
  | cons q rest ih =>
    obtain ⟨k, old⟩ := q
    simp only [rbInsert]
    split_ifs with h1 h2
    · subst h1; simp [rbGet, hc.symm]
    · simp [rbGet, hc.symm]
    · simp [rbGet, ih]

theorem rbGet_rbErase_same {rb : List (Addr × List Byte)} (h : rbWf rb = true) (a : Addr) :
    rbGet (rbErase rb a) a = [] := by
  induction rb with
  | nil => rfl
  | cons q rest ih =>
    obtain ⟨k, old⟩ := q
    obtain ⟨ho, hk, hw⟩ := (rbWf_cons k old rest).1 h
    simp only [rbErase]
    split_ifs with h1
    · subst h1
      exact rbGet_eq_nil_of_forall_ne fun p hp e => by
        have := hk p hp
        rw [e] at this
        exact lt_irrefl _ this
    · simp [rbGet, h1, ih hw]

theorem rbGet_rbErase_other (rb : List (Addr × List Byte)) {a c : Addr} (hc : c ≠ a) :
    rbGet (rbErase rb a) c = rbGet rb c := by
  induction rb with
  | nil => rfl
  | cons q rest ih =>
    obtain ⟨k, old⟩ := q
    simp only [rbErase]
    split_ifs with h1
    · subst h1; simp [rbGet, hc.symm]
    · simp [rbGet, ih]

/-- What was written for a source is what is read for it (R12). -/
theorem rbGet_rbSet_same {rb : List (Addr × List Byte)} (h : rbWf rb = true) (a : Addr) (buf : List Byte) :
    rbGet (rbSet rb a buf) a = buf := by
  cases buf with
  | nil => exact rbGet_rbErase_same h a
  | cons b bs => exact rbGet_rbInsert_same rb a _

/-- A non-empty buffer written is read, whatever the form of the table. -/
theorem rbGet_rbSet_cons (rb : List (Addr × List Byte)) (a : Addr) (b : Byte) (bs : List Byte) :
    rbGet (rbSet rb a (b :: bs)) a = b :: bs := rbGet_rbInsert_same rb a _

/-- A write for one source leaves every other source's buffer alone (R31, R219). -/
theorem rbGet_rbSet_other (rb : List (Addr × List Byte)) {a c : Addr} (buf : List Byte) (hc : c ≠ a) :
    rbGet (rbSet rb a buf) c = rbGet rb c := by
  cases buf with
  | nil => exact rbGet_rbErase_other rb hc
  | cons b bs => exact rbGet_rbInsert_other rb _ hc

/-- Writing twice is writing the second time. -/
theorem rbInsert_rbInsert (rb : List (Addr × List Byte)) (a : Addr) (x y : List Byte) :
    rbInsert (rbInsert rb a x) a y = rbInsert rb a y := by
  induction rb with
  | nil => simp [rbInsert]
  | cons q rest ih =>
    obtain ⟨k, old⟩ := q
    simp only [rbInsert]
    split_ifs with h1 h2 <;> simp_all [rbInsert]

theorem rbErase_rbInsert {rb : List (Addr × List Byte)} (h : rbWf rb = true) (a : Addr) (x : List Byte) :
    rbErase (rbInsert rb a x) a = rbErase rb a := by
  induction rb with
  | nil => simp [rbInsert, rbErase]
  | cons q rest ih =>
    obtain ⟨k, old⟩ := q
    obtain ⟨ho, hk, hw⟩ := (rbWf_cons k old rest).1 h
    simp only [rbInsert]
    split_ifs with h1 h2
    · simp [rbErase, h1]
    · have h3 : ∀ rb : List (Addr × List Byte), (∀ p ∈ rb, addrKey a < addrKey p.1) → rbErase rb a = rb := by
        intro rb
        induction rb with
        | nil => intro _; rfl
        | cons q rest ih =>
          obtain ⟨k, old⟩ := q
          intro hp
          simp only [List.mem_cons, forall_eq_or_imp] at hp
          have : k ≠ a := fun e => by have := hp.1; rw [e] at this; exact lt_irrefl _ this
          simp [rbErase, this, ih hp.2]
      have h4 : rbErase ((k, old) :: rest) a = (k, old) :: rest := h3 _ (by
        intro p hp
        rcases List.mem_cons.1 hp with rfl | hp
        · exact h2
        · exact lt_trans h2 (hk p hp))
      rw [h4]; simp [rbErase]
    · simp [rbErase, h1, ih hw]

/-- Writing twice for one source is writing the second time. -/
theorem rbSet_rbSet {rb : List (Addr × List Byte)} (h : rbWf rb = true) (a : Addr) (b : Byte) (bs y : List Byte) :
    rbSet (rbSet rb a (b :: bs)) a y = rbSet rb a y := by
  cases y with
  | nil => exact rbErase_rbInsert h a _
  | cons c cs => exact rbInsert_rbInsert rb a _ _

/-- Emptying the buffer of a source that has none changes nothing. -/
theorem rbErase_of_rbGet_eq_nil {rb : List (Addr × List Byte)} (h : rbWf rb = true) {a : Addr}
    (ha : rbGet rb a = []) : rbErase rb a = rb := by
  induction rb with
  | nil => rfl
  | cons q rest ih =>
    obtain ⟨k, old⟩ := q
    obtain ⟨ho, hk, hw⟩ := (rbWf_cons k old rest).1 h
    simp only [rbGet] at ha
    split_ifs at ha with h1
    · exact absurd ha ho
    · simp [rbErase, h1, ih hw ha]

/-- How many sources have a buffer after one is written that had one. -/
theorem rbInsert_length_of_rbGet_ne_nil {rb : List (Addr × List Byte)} {a : Addr} (h : rbWf rb = true)
    (ha : rbGet rb a ≠ []) (buf : List Byte) : (rbInsert rb a buf).length = rb.length := by
  induction rb with
  | nil => simp [rbGet] at ha
  | cons q rest ih =>
    obtain ⟨k, old⟩ := q
    obtain ⟨ho, hk, hw⟩ := (rbWf_cons k old rest).1 h
    simp only [rbGet] at ha
    simp only [rbInsert]
    split_ifs at ha ⊢ with h1 h2
    · simp
    · exfalso
      apply ha
      refine rbGet_eq_nil_of_forall_ne fun p hp e => ?_
      have := hk p hp
      rw [e] at this
      omega
    · simp [ih hw ha]

/-- An insertion adds at most one source. -/
theorem rbInsert_length_le (rb : List (Addr × List Byte)) (a : Addr) (buf : List Byte) :
    (rbInsert rb a buf).length ≤ rb.length + 1 := by
  induction rb with
  | nil => simp [rbInsert]
  | cons q rest ih =>
    obtain ⟨k, old⟩ := q
    simp only [rbInsert]
    split_ifs with h1 h2 <;> simp
    exact ih

/-- A removal adds no source. -/
theorem rbErase_length_le (rb : List (Addr × List Byte)) (a : Addr) : (rbErase rb a).length ≤ rb.length := by
  induction rb with
  | nil => simp [rbErase]
  | cons q rest ih =>
    obtain ⟨k, old⟩ := q
    simp only [rbErase]
    split_ifs with h1 <;> simp
    exact ih

/-- The table right after reset is in canonical form. -/
theorem reset_rb_wf : rbWf State.reset.rb = true := rfl

/-- Two tables in canonical form that read the same for every source are the same table. -/
theorem rb_ext {x y : List (Addr × List Byte)} (hx : rbWf x = true) (hy : rbWf y = true)
    (h : ∀ a, rbGet x a = rbGet y a) : x = y := by
  induction x generalizing y with
  | nil =>
    cases y with
    | nil => rfl
    | cons q rest =>
      obtain ⟨k, buf⟩ := q
      have := h k
      simp only [rbGet, if_true] at this
      exact absurd this.symm ((rbWf_cons k buf rest).1 hy).1
  | cons p restx ih =>
    obtain ⟨k, buf⟩ := p
    obtain ⟨hb, hk, hw⟩ := (rbWf_cons k buf restx).1 hx
    have below : ∀ {a : Addr} {r : List (Addr × List Byte)}, (∀ q ∈ r, addrKey a < addrKey q.1) → rbGet r a = [] :=
      fun hr => rbGet_eq_nil_of_forall_ne fun q hq e => by
        have := hr q hq
        rw [e] at this
        exact lt_irrefl _ this
    cases y with
    | nil =>
      have := h k
      simp only [rbGet, if_true] at this
      exact absurd this hb
    | cons q resty =>
      obtain ⟨k', buf'⟩ := q
      obtain ⟨hb', hk', hw'⟩ := (rbWf_cons k' buf' resty).1 hy
      have hkk : k = k' := by
        by_contra hne
        rcases lt_trichotomy (addrKey k) (addrKey k') with hlt | heq | hgt
        · have h1 := h k
          have h2 : rbGet ((k', buf') :: resty) k = [] := below (by
            intro q hq
            rcases List.mem_cons.1 hq with rfl | hq
            · exact hlt
            · exact lt_trans hlt (hk' q hq))
          rw [h2] at h1
          simp only [rbGet, if_true] at h1
          exact hb h1
        · exact hne (addrKey_inj heq)
        · have h1 := h k'
          have h2 : rbGet ((k, buf) :: restx) k' = [] := below (by
            intro q hq
            rcases List.mem_cons.1 hq with rfl | hq
            · exact hgt
            · exact lt_trans hgt (hk q hq))
          rw [h2] at h1
          simp only [rbGet, if_true] at h1
          exact hb' h1.symm
      subst hkk
      have hbb : buf = buf' := by simpa [rbGet] using h k
      subst hbb
      congr 1
      apply ih hw hw'
      intro a
      by_cases ha : k = a
      · subst ha; rw [below hk, below hk']
      · simpa [rbGet, ha] using h a

end Sys2Proof.Machine
end

