-- ==== Sys2Proof/Laws/Receive.lean ====
section
/-! SUPPORT. The receive path: what each of its functions does, case by case, and what none of them touches. -/

namespace Sys2Proof.Machine
open Sys2Proof

/-! ## What each function of the receive path does, once -/

/-- PPP_RX of one byte that ends a frame: a flag after at least one byte (R217). -/
theorem pppByte_ends {src : Addr} {s : State} (h : rbGet s.rb src ≠ []) :
    pppByte src flag s = pppDeliver (pppExtract (rbGet s.rb src ++ [flag])) (setRb src [] s) :=
  if_pos ⟨rfl, by have := List.length_pos_of_ne_nil h; simp [append]; omega⟩

/-- PPP_RX of one byte that ends no frame and finds no room in its buffer (R217). -/
theorem pppByte_overflows {src : Addr} {b : Byte} {s : State} (h : b ≠ flag ∨ rbGet s.rb src = [])
    (hc : exceeds ((rbGet s.rb src).length + 1) s.cfg.pppBufMax = true) :
    pppByte src b s = raise (errOf .pppBufOverflow 0) (setRb src [] s) := by
  have hn : ¬(b = flag ∧ 2 ≤ (append (rbGet s.rb src) b).length) := by
    rintro ⟨hb, hl⟩
    rcases h with h | h
    · exact h hb
    · simp [append, h] at hl
  have hx : exceeds (append (rbGet s.rb src) b).length s.cfg.pppBufMax = true := by simpa [append] using hc
  exact (if_neg hn).trans (if_pos hx)

/-- PPP_RX of one byte that is stored (R217). -/
theorem pppByte_stores {src : Addr} {b : Byte} {s : State} (h : b ≠ flag ∨ rbGet s.rb src = [])
    (hc : exceeds ((rbGet s.rb src).length + 1) s.cfg.pppBufMax = false) :
    pppByte src b s = setRb src (rbGet s.rb src ++ [b]) s := by
  have hn : ¬(b = flag ∧ 2 ≤ (append (rbGet s.rb src) b).length) := by
    rintro ⟨hb, hl⟩
    rcases h with h | h
    · exact h hb
    · simp [append, h] at hl
  have hx : ¬exceeds (append (rbGet s.rb src) b).length s.cfg.pppBufMax = true := by simpa [append] using hc
  exact (if_neg hn).trans (if_neg hx)

/-- The three things that PPP_RX does with one byte (R217). -/
theorem pppByte_cases (src : Addr) (b : Byte) (s : State) :
    (b = flag ∧ rbGet s.rb src ≠ []
      ∧ pppByte src b s = pppDeliver (pppExtract (rbGet s.rb src ++ [flag])) (setRb src [] s))
    ∨ ((b ≠ flag ∨ rbGet s.rb src = []) ∧ exceeds ((rbGet s.rb src).length + 1) s.cfg.pppBufMax = true
      ∧ pppByte src b s = raise (errOf .pppBufOverflow 0) (setRb src [] s))
    ∨ ((b ≠ flag ∨ rbGet s.rb src = []) ∧ exceeds ((rbGet s.rb src).length + 1) s.cfg.pppBufMax = false
      ∧ pppByte src b s = setRb src (rbGet s.rb src ++ [b]) s) := by
  by_cases h : b = flag ∧ rbGet s.rb src ≠ []
  · exact .inl ⟨h.1, h.2, h.1 ▸ pppByte_ends h.2⟩
  · have h' : b ≠ flag ∨ rbGet s.rb src = [] := by tauto
    cases hc : exceeds ((rbGet s.rb src).length + 1) s.cfg.pppBufMax with
    | true => exact .inr (.inl ⟨h', rfl, pppByte_overflows h' hc⟩)
    | false => exact .inr (.inr ⟨h', rfl, pppByte_stores h' hc⟩)

/-- Before the frame in `OB` is complete nothing is delivered (R190). -/
theorem rxComplete_waits {s : State} (h : ¬(outerHlen ≤ s.ob.length ∧ s.ob.length = (byteAt s.ob 1).toNat)) :
    rxComplete s = s := if_neg h

/-- A complete frame leaves `OB` and is delivered (R190). -/
theorem rxComplete_delivers {s : State} (h : outerHlen ≤ s.ob.length ∧ s.ob.length = (byteAt s.ob 1).toNat) :
    rxComplete s = outerDeliver s.ob (setOb [] s) := if_pos h

/-- The three things that DISPATCH does (R276): the message is no match, or it raises, or it goes to the rule
of the mode. -/
theorem dispatch_cases (m : InnerMessage) (s : State) :
    (matchesPending m s = false ∧ dispatch m s = s)
    ∨ (matchesPending m s = true ∧ m.error ≠ 0 ∧ dispatch m s = raise (errOf .device m.error.toNat) s)
    ∨ (matchesPending m s = true ∧ m.error = 0 ∧ s.pend.mode = .single
      ∧ dispatch m s = closeWait .complete (emit (.resultSingle m) s))
    ∨ (matchesPending m s = true ∧ m.error = 0 ∧ s.pend.mode = .multi ∧ dispatch m s = accStep m s) := by
  unfold dispatch
  by_cases hm : matchesPending m s = true
  · by_cases he : m.error = 0
    · cases hp : s.pend.mode <;> simp [hm, he]
    · exact .inr (.inl ⟨hm, he, by rw [if_neg (by simp [hm]), if_pos he]⟩)
  · simp [hm]

/-- The four things that INNER_RX does (R247). -/
theorem innerRx_cases (protocol : U16) (body : List Byte) (s : State) :
    (protocol ≠ s.cfg.smaProtocolId ∧ innerRx protocol body s = raise (errOf .wrongProtocol protocol.toNat) s)
    ∨ (∃ e, innerParse body = .err e ∧ innerRx protocol body s = raise e s)
    ∨ (∃ m, innerParse body = .ok m ∧ innerRx protocol body s = s)
    ∨ (∃ m, innerParse body = .ok m ∧ innerFilter s.localAddr2 s.cfg.bcast2 m.to2 = true
      ∧ innerRx protocol body s = dispatch m s) := by
  unfold innerRx
  by_cases hp : protocol ≠ s.cfg.smaProtocolId
  · exact .inl ⟨hp, if_pos hp⟩
  · rw [if_neg hp]
    cases h : innerParse body with
    | err e => exact .inr (.inl ⟨e, rfl, rfl⟩)
    | ok m =>
      by_cases hf : innerFilter s.localAddr2 s.cfg.bcast2 m.to2 = true
      · exact .inr (.inr (.inr ⟨m, rfl, hf, if_pos hf⟩))
      · exact .inr (.inr (.inl ⟨m, rfl, if_neg hf⟩))

/-- The three things that OUTER_DELIVER does (R193). -/
theorem outerDeliver_cases (frame : List Byte) (s : State) :
    outerDeliver frame s = s
    ∨ outerDeliver frame s = pppRx (addrAt frame 4) (frame.drop outerHlen) s
    ∨ outerDeliver frame s
      = emit (.outer (addrAt frame 4) (addrAt frame 10) (read16 frame 16) (frame.drop outerHlen)) s := by
  unfold outerDeliver; dsimp only
  split_ifs <;> simp

/-- Bytes received one after the other, one RX_BYTE each. -/
def rxBytes : List Byte → State → State
  | [], s => s
  | b :: rest, s => rxBytes rest (rxByte b s)

/-- Receiving bytes in two parts (R190). -/
theorem rxBytes_append (p q : List Byte) (s : State) : rxBytes (p ++ q) s = rxBytes q (rxBytes p s) := by
  induction p generalizing s with
  | nil => rfl
  | cons b rest ih => simp [rxBytes, ih]

/-- The three things that `accFinish` does (R302). -/
theorem accFinish_cases (m : InnerMessage) (e : U17) (s : State) :
    (m.pktcount ≠ 0 ∧ accFinish m e s = s)
    ∨ (m.pktcount = 0 ∧ s.accCollected.length ≠ e.toNat ∧ accFinish m e s = raise (errOf .accCount 0) s)
    ∨ (m.pktcount = 0 ∧ s.accCollected.length = e.toNat
      ∧ accFinish m e s = setAcc none [] (closeWait .complete (emit (.resultMulti s.accCollected) s))) := by
  by_cases h : m.pktcount = 0
  · by_cases hl : s.accCollected.length = e.toNat
    · exact .inr (.inr ⟨h, hl, (if_pos h).trans (if_neg (by simpa using hl))⟩)
    · exact .inr (.inl ⟨h, hl, (if_pos h).trans (if_pos hl)⟩)
  · exact .inl ⟨h, if_neg h⟩

/-- The three things that ACC_STEP does with a message while nothing is expected (R302). -/
theorem accStep_first {m : InnerMessage} {s : State} (h : s.accExpected = none) :
    (m.first = false ∧ accStep m s = raise (errOf .missingFirst m.pktcount.toNat) s)
    ∨ (m.first = true ∧ exceeds (m.pktcount.toNat + 1) s.cfg.accMaxPkts = true
      ∧ accStep m s = raise (errOf .accCapacity m.pktcount.toNat) s)
    ∨ (m.first = true ∧ exceeds (m.pktcount.toNat + 1) s.cfg.accMaxPkts = false
      ∧ accStep m s = accFinish m (m.pktcount.setWidth 17 + 1)
          { setAcc (some (m.pktcount.setWidth 17 + 1)) [m] s with cst := .accumulating }) := by
  unfold accStep
  rw [h]
  cases hf : m.first <;> cases he : exceeds (m.pktcount.toNat + 1) s.cfg.accMaxPkts <;> simp

/-- The two things that ACC_STEP does with a message while `e` are expected (R302). -/
theorem accStep_next {m : InnerMessage} {s : State} {e : U17} (h : s.accExpected = some e) :
    (m.pktcount.toNat + s.accCollected.length + 1 ≠ e.toNat
      ∧ accStep m s = raise (errOf .outOfOrder m.pktcount.toNat) s)
    ∨ (m.pktcount.toNat + s.accCollected.length + 1 = e.toNat
      ∧ accStep m s = accFinish m e (setAcc (some e) (s.accCollected ++ [m]) s)) := by
  unfold accStep
  rw [h]
  by_cases hp : m.pktcount.toNat + s.accCollected.length + 1 = e.toNat
  · exact .inr ⟨hp, if_neg (by simpa using hp)⟩
  · exact .inl ⟨hp, if_pos hp⟩

/-- The two things that RX_BYTE does (R190): it discards a bad header, or it keeps the byte and delivers the
frame if it is complete. -/
theorem rxByte_cases (b : Byte) (s : State) :
    (∃ e, (s.ob ++ [b]).length = outerHlen ∧ outerParse (s.ob ++ [b]) = .err e
      ∧ rxByte b s = raise e (setOb [] s))
    ∨ (((s.ob ++ [b]).length = outerHlen → ∃ h, outerParse (s.ob ++ [b]) = .ok h)
      ∧ rxByte b s = rxComplete (setOb (s.ob ++ [b]) s)) := by
  have hx : rxByte b s = if (s.ob ++ [b]).length = outerHlen then
      (match outerParse (s.ob ++ [b]) with
        | .err e => raise e (setOb [] s)
        | .ok _ => rxComplete (setOb (s.ob ++ [b]) s))
      else rxComplete (setOb (s.ob ++ [b]) s) := rfl
  rw [hx]
  by_cases h : (s.ob ++ [b]).length = outerHlen
  · rw [if_pos h]
    cases hp : outerParse (s.ob ++ [b]) with
    | err e => exact .inl ⟨e, h, rfl, rfl⟩
    | ok hd => exact .inr ⟨fun _ => ⟨hd, rfl⟩, rfl⟩
  · rw [if_neg h]
    exact .inr ⟨fun e => absurd e h, rfl⟩

/-! ## What the receive path leaves alone (R20) -/


@[simp] theorem accFinish_cfg (m : InnerMessage) (e : U17) (s : State) :
    (accFinish m e s).cfg = s.cfg := by
  unfold accFinish; split_ifs <;> simp

@[simp] theorem accStep_cfg (m : InnerMessage) (s : State) : (accStep m s).cfg = s.cfg := by
  unfold accStep; split <;> split_ifs <;> simp

@[simp] theorem dispatch_cfg (m : InnerMessage) (s : State) : (dispatch m s).cfg = s.cfg := by
  unfold dispatch; split_ifs <;> first | rfl | simp | (split <;> simp)

@[simp] theorem innerRx_cfg (protocol : U16) (body : List Byte) (s : State) :
    (innerRx protocol body s).cfg = s.cfg := by
  unfold innerRx; split_ifs; · simp
  split; · simp
  split_ifs <;> simp

@[simp] theorem accFinish_localAddr (m : InnerMessage) (e : U17) (s : State) :
    (accFinish m e s).localAddr = s.localAddr := by
  unfold accFinish; split_ifs <;> simp

@[simp] theorem accStep_localAddr (m : InnerMessage) (s : State) : (accStep m s).localAddr = s.localAddr := by
  unfold accStep; split <;> split_ifs <;> simp

@[simp] theorem dispatch_localAddr (m : InnerMessage) (s : State) : (dispatch m s).localAddr = s.localAddr := by
  unfold dispatch; split_ifs <;> first | rfl | simp | (split <;> simp)

@[simp] theorem innerRx_localAddr (protocol : U16) (body : List Byte) (s : State) :
    (innerRx protocol body s).localAddr = s.localAddr := by
  unfold innerRx; split_ifs; · simp
  split; · simp
  split_ifs <;> simp

@[simp] theorem accFinish_localAddr2 (m : InnerMessage) (e : U17) (s : State) :
    (accFinish m e s).localAddr2 = s.localAddr2 := by
  unfold accFinish; split_ifs <;> simp

@[simp] theorem accStep_localAddr2 (m : InnerMessage) (s : State) : (accStep m s).localAddr2 = s.localAddr2 := by
  unfold accStep; split <;> split_ifs <;> simp

@[simp] theorem dispatch_localAddr2 (m : InnerMessage) (s : State) : (dispatch m s).localAddr2 = s.localAddr2 := by
  unfold dispatch; split_ifs <;> first | rfl | simp | (split <;> simp)

@[simp] theorem innerRx_localAddr2 (protocol : U16) (body : List Byte) (s : State) :
    (innerRx protocol body s).localAddr2 = s.localAddr2 := by
  unfold innerRx; split_ifs; · simp
  split; · simp
  split_ifs <;> simp

@[simp] theorem accFinish_tagctr (m : InnerMessage) (e : U17) (s : State) :
    (accFinish m e s).tagctr = s.tagctr := by
  unfold accFinish; split_ifs <;> simp

@[simp] theorem accStep_tagctr (m : InnerMessage) (s : State) : (accStep m s).tagctr = s.tagctr := by
  unfold accStep; split <;> split_ifs <;> simp

@[simp] theorem dispatch_tagctr (m : InnerMessage) (s : State) : (dispatch m s).tagctr = s.tagctr := by
  unfold dispatch; split_ifs <;> first | rfl | simp | (split <;> simp)

@[simp] theorem innerRx_tagctr (protocol : U16) (body : List Byte) (s : State) :
    (innerRx protocol body s).tagctr = s.tagctr := by
  unfold innerRx; split_ifs; · simp
  split; · simp
  split_ifs <;> simp

@[simp] theorem accFinish_txq (m : InnerMessage) (e : U17) (s : State) :
    (accFinish m e s).txq = s.txq := by
  unfold accFinish; split_ifs <;> simp

@[simp] theorem accStep_txq (m : InnerMessage) (s : State) : (accStep m s).txq = s.txq := by
  unfold accStep; split <;> split_ifs <;> simp

@[simp] theorem dispatch_txq (m : InnerMessage) (s : State) : (dispatch m s).txq = s.txq := by
  unfold dispatch; split_ifs <;> first | rfl | simp | (split <;> simp)

@[simp] theorem innerRx_txq (protocol : U16) (body : List Byte) (s : State) :
    (innerRx protocol body s).txq = s.txq := by
  unfold innerRx; split_ifs; · simp
  split; · simp
  split_ifs <;> simp

@[simp] theorem accFinish_resp (m : InnerMessage) (e : U17) (s : State) :
    (accFinish m e s).resp = s.resp := by
  unfold accFinish; split_ifs <;> simp

@[simp] theorem accStep_resp (m : InnerMessage) (s : State) : (accStep m s).resp = s.resp := by
  unfold accStep; split <;> split_ifs <;> simp

@[simp] theorem dispatch_resp (m : InnerMessage) (s : State) : (dispatch m s).resp = s.resp := by
  unfold dispatch; split_ifs <;> first | rfl | simp | (split <;> simp)

@[simp] theorem innerRx_resp (protocol : U16) (body : List Byte) (s : State) :
    (innerRx protocol body s).resp = s.resp := by
  unfold innerRx; split_ifs; · simp
  split; · simp
  split_ifs <;> simp

@[simp] theorem accFinish_inputs (m : InnerMessage) (e : U17) (s : State) :
    (accFinish m e s).inputs = s.inputs := by
  unfold accFinish; split_ifs <;> simp

@[simp] theorem accStep_inputs (m : InnerMessage) (s : State) : (accStep m s).inputs = s.inputs := by
  unfold accStep; split <;> split_ifs <;> simp

@[simp] theorem dispatch_inputs (m : InnerMessage) (s : State) : (dispatch m s).inputs = s.inputs := by
  unfold dispatch; split_ifs <;> first | rfl | simp | (split <;> simp)

@[simp] theorem innerRx_inputs (protocol : U16) (body : List Byte) (s : State) :
    (innerRx protocol body s).inputs = s.inputs := by
  unfold innerRx; split_ifs; · simp
  split; · simp
  split_ifs <;> simp

@[simp] theorem accFinish_ob (m : InnerMessage) (e : U17) (s : State) :
    (accFinish m e s).ob = s.ob := by
  unfold accFinish; split_ifs <;> simp

@[simp] theorem accStep_ob (m : InnerMessage) (s : State) : (accStep m s).ob = s.ob := by
  unfold accStep; split <;> split_ifs <;> simp

@[simp] theorem dispatch_ob (m : InnerMessage) (s : State) : (dispatch m s).ob = s.ob := by
  unfold dispatch; split_ifs <;> first | rfl | simp | (split <;> simp)

@[simp] theorem innerRx_ob (protocol : U16) (body : List Byte) (s : State) :
    (innerRx protocol body s).ob = s.ob := by
  unfold innerRx; split_ifs; · simp
  split; · simp
  split_ifs <;> simp

@[simp] theorem accFinish_rb (m : InnerMessage) (e : U17) (s : State) :
    (accFinish m e s).rb = s.rb := by
  unfold accFinish; split_ifs <;> simp

@[simp] theorem accStep_rb (m : InnerMessage) (s : State) : (accStep m s).rb = s.rb := by
  unfold accStep; split <;> split_ifs <;> simp

@[simp] theorem dispatch_rb (m : InnerMessage) (s : State) : (dispatch m s).rb = s.rb := by
  unfold dispatch; split_ifs <;> first | rfl | simp | (split <;> simp)

@[simp] theorem innerRx_rb (protocol : U16) (body : List Byte) (s : State) :
    (innerRx protocol body s).rb = s.rb := by
  unfold innerRx; split_ifs; · simp
  split; · simp
  split_ifs <;> simp

@[simp] theorem pppDeliver_cfg (r : Result PppFrame) (s : State) : (pppDeliver r s).cfg = s.cfg := by
  unfold pppDeliver; split <;> simp

@[simp] theorem pppByte_cfg (src : Addr) (b : Byte) (s : State) : (pppByte src b s).cfg = s.cfg := by
  unfold pppByte; dsimp only; split_ifs <;> simp

@[simp] theorem pppRx_cfg (src : Addr) (p : List Byte) (s : State) : (pppRx src p s).cfg = s.cfg := by
  induction p generalizing s with
  | nil => rfl
  | cons b rest ih => simp only [pppRx]; split_ifs <;> simp [ih]

@[simp] theorem outerDeliver_cfg (frame : List Byte) (s : State) : (outerDeliver frame s).cfg = s.cfg := by
  unfold outerDeliver; dsimp only; split_ifs <;> simp

@[simp] theorem pppDeliver_localAddr (r : Result PppFrame) (s : State) : (pppDeliver r s).localAddr = s.localAddr := by
  unfold pppDeliver; split <;> simp

@[simp] theorem pppByte_localAddr (src : Addr) (b : Byte) (s : State) : (pppByte src b s).localAddr = s.localAddr := by
  unfold pppByte; dsimp only; split_ifs <;> simp

@[simp] theorem pppRx_localAddr (src : Addr) (p : List Byte) (s : State) : (pppRx src p s).localAddr = s.localAddr := by
  induction p generalizing s with
  | nil => rfl
  | cons b rest ih => simp only [pppRx]; split_ifs <;> simp [ih]

@[simp] theorem outerDeliver_localAddr (frame : List Byte) (s : State) : (outerDeliver frame s).localAddr = s.localAddr := by
  unfold outerDeliver; dsimp only; split_ifs <;> simp

@[simp] theorem pppDeliver_localAddr2 (r : Result PppFrame) (s : State) : (pppDeliver r s).localAddr2 = s.localAddr2 := by
  unfold pppDeliver; split <;> simp

@[simp] theorem pppByte_localAddr2 (src : Addr) (b : Byte) (s : State) : (pppByte src b s).localAddr2 = s.localAddr2 := by
  unfold pppByte; dsimp only; split_ifs <;> simp

@[simp] theorem pppRx_localAddr2 (src : Addr) (p : List Byte) (s : State) : (pppRx src p s).localAddr2 = s.localAddr2 := by
  induction p generalizing s with
  | nil => rfl
  | cons b rest ih => simp only [pppRx]; split_ifs <;> simp [ih]

@[simp] theorem outerDeliver_localAddr2 (frame : List Byte) (s : State) : (outerDeliver frame s).localAddr2 = s.localAddr2 := by
  unfold outerDeliver; dsimp only; split_ifs <;> simp

@[simp] theorem pppDeliver_tagctr (r : Result PppFrame) (s : State) : (pppDeliver r s).tagctr = s.tagctr := by
  unfold pppDeliver; split <;> simp

@[simp] theorem pppByte_tagctr (src : Addr) (b : Byte) (s : State) : (pppByte src b s).tagctr = s.tagctr := by
  unfold pppByte; dsimp only; split_ifs <;> simp

@[simp] theorem pppRx_tagctr (src : Addr) (p : List Byte) (s : State) : (pppRx src p s).tagctr = s.tagctr := by
  induction p generalizing s with
  | nil => rfl
  | cons b rest ih => simp only [pppRx]; split_ifs <;> simp [ih]

@[simp] theorem outerDeliver_tagctr (frame : List Byte) (s : State) : (outerDeliver frame s).tagctr = s.tagctr := by
  unfold outerDeliver; dsimp only; split_ifs <;> simp

@[simp] theorem pppDeliver_txq (r : Result PppFrame) (s : State) : (pppDeliver r s).txq = s.txq := by
  unfold pppDeliver; split <;> simp

@[simp] theorem pppByte_txq (src : Addr) (b : Byte) (s : State) : (pppByte src b s).txq = s.txq := by
  unfold pppByte; dsimp only; split_ifs <;> simp

@[simp] theorem pppRx_txq (src : Addr) (p : List Byte) (s : State) : (pppRx src p s).txq = s.txq := by
  induction p generalizing s with
  | nil => rfl
  | cons b rest ih => simp only [pppRx]; split_ifs <;> simp [ih]

@[simp] theorem outerDeliver_txq (frame : List Byte) (s : State) : (outerDeliver frame s).txq = s.txq := by
  unfold outerDeliver; dsimp only; split_ifs <;> simp

@[simp] theorem pppDeliver_resp (r : Result PppFrame) (s : State) : (pppDeliver r s).resp = s.resp := by
  unfold pppDeliver; split <;> simp

@[simp] theorem pppByte_resp (src : Addr) (b : Byte) (s : State) : (pppByte src b s).resp = s.resp := by
  unfold pppByte; dsimp only; split_ifs <;> simp

@[simp] theorem pppRx_resp (src : Addr) (p : List Byte) (s : State) : (pppRx src p s).resp = s.resp := by
  induction p generalizing s with
  | nil => rfl
  | cons b rest ih => simp only [pppRx]; split_ifs <;> simp [ih]

@[simp] theorem outerDeliver_resp (frame : List Byte) (s : State) : (outerDeliver frame s).resp = s.resp := by
  unfold outerDeliver; dsimp only; split_ifs <;> simp

@[simp] theorem pppDeliver_inputs (r : Result PppFrame) (s : State) : (pppDeliver r s).inputs = s.inputs := by
  unfold pppDeliver; split <;> simp

@[simp] theorem pppByte_inputs (src : Addr) (b : Byte) (s : State) : (pppByte src b s).inputs = s.inputs := by
  unfold pppByte; dsimp only; split_ifs <;> simp

@[simp] theorem pppRx_inputs (src : Addr) (p : List Byte) (s : State) : (pppRx src p s).inputs = s.inputs := by
  induction p generalizing s with
  | nil => rfl
  | cons b rest ih => simp only [pppRx]; split_ifs <;> simp [ih]

@[simp] theorem outerDeliver_inputs (frame : List Byte) (s : State) : (outerDeliver frame s).inputs = s.inputs := by
  unfold outerDeliver; dsimp only; split_ifs <;> simp

@[simp] theorem pppDeliver_ob (r : Result PppFrame) (s : State) : (pppDeliver r s).ob = s.ob := by
  unfold pppDeliver; split <;> simp

@[simp] theorem pppByte_ob (src : Addr) (b : Byte) (s : State) : (pppByte src b s).ob = s.ob := by
  unfold pppByte; dsimp only; split_ifs <;> simp

@[simp] theorem pppRx_ob (src : Addr) (p : List Byte) (s : State) : (pppRx src p s).ob = s.ob := by
  induction p generalizing s with
  | nil => rfl
  | cons b rest ih => simp only [pppRx]; split_ifs <;> simp [ih]

@[simp] theorem outerDeliver_ob (frame : List Byte) (s : State) : (outerDeliver frame s).ob = s.ob := by
  unfold outerDeliver; dsimp only; split_ifs <;> simp

@[simp] theorem rxComplete_cfg (s : State) : (rxComplete s).cfg = s.cfg := by
  unfold rxComplete; split_ifs <;> simp

@[simp] theorem rxByte_cfg (b : Byte) (s : State) : (rxByte b s).cfg = s.cfg := by
  unfold rxByte; dsimp only; split_ifs; · split <;> simp
  simp

@[simp] theorem rxBytes_cfg (bs : List Byte) (s : State) : (rxBytes bs s).cfg = s.cfg := by
  induction bs generalizing s with
  | nil => rfl
  | cons b rest ih => simp [rxBytes, ih]

@[simp] theorem rxComplete_localAddr (s : State) : (rxComplete s).localAddr = s.localAddr := by
  unfold rxComplete; split_ifs <;> simp

@[simp] theorem rxByte_localAddr (b : Byte) (s : State) : (rxByte b s).localAddr = s.localAddr := by
  unfold rxByte; dsimp only; split_ifs; · split <;> simp
  simp

@[simp] theorem rxBytes_localAddr (bs : List Byte) (s : State) : (rxBytes bs s).localAddr = s.localAddr := by
  induction bs generalizing s with
  | nil => rfl
  | cons b rest ih => simp [rxBytes, ih]

@[simp] theorem rxComplete_localAddr2 (s : State) : (rxComplete s).localAddr2 = s.localAddr2 := by
  unfold rxComplete; split_ifs <;> simp

@[simp] theorem rxByte_localAddr2 (b : Byte) (s : State) : (rxByte b s).localAddr2 = s.localAddr2 := by
  unfold rxByte; dsimp only; split_ifs; · split <;> simp
  simp

@[simp] theorem rxBytes_localAddr2 (bs : List Byte) (s : State) : (rxBytes bs s).localAddr2 = s.localAddr2 := by
  induction bs generalizing s with
  | nil => rfl
  | cons b rest ih => simp [rxBytes, ih]

@[simp] theorem rxComplete_tagctr (s : State) : (rxComplete s).tagctr = s.tagctr := by
  unfold rxComplete; split_ifs <;> simp

@[simp] theorem rxByte_tagctr (b : Byte) (s : State) : (rxByte b s).tagctr = s.tagctr := by
  unfold rxByte; dsimp only; split_ifs; · split <;> simp
  simp

@[simp] theorem rxBytes_tagctr (bs : List Byte) (s : State) : (rxBytes bs s).tagctr = s.tagctr := by
  induction bs generalizing s with
  | nil => rfl
  | cons b rest ih => simp [rxBytes, ih]

@[simp] theorem rxComplete_txq (s : State) : (rxComplete s).txq = s.txq := by
  unfold rxComplete; split_ifs <;> simp

@[simp] theorem rxByte_txq (b : Byte) (s : State) : (rxByte b s).txq = s.txq := by
  unfold rxByte; dsimp only; split_ifs; · split <;> simp
  simp

@[simp] theorem rxBytes_txq (bs : List Byte) (s : State) : (rxBytes bs s).txq = s.txq := by
  induction bs generalizing s with
  | nil => rfl
  | cons b rest ih => simp [rxBytes, ih]

@[simp] theorem rxComplete_resp (s : State) : (rxComplete s).resp = s.resp := by
  unfold rxComplete; split_ifs <;> simp

@[simp] theorem rxByte_resp (b : Byte) (s : State) : (rxByte b s).resp = s.resp := by
  unfold rxByte; dsimp only; split_ifs; · split <;> simp
  simp

@[simp] theorem rxBytes_resp (bs : List Byte) (s : State) : (rxBytes bs s).resp = s.resp := by
  induction bs generalizing s with
  | nil => rfl
  | cons b rest ih => simp [rxBytes, ih]

@[simp] theorem rxComplete_inputs (s : State) : (rxComplete s).inputs = s.inputs := by
  unfold rxComplete; split_ifs <;> simp

@[simp] theorem rxByte_inputs (b : Byte) (s : State) : (rxByte b s).inputs = s.inputs := by
  unfold rxByte; dsimp only; split_ifs; · split <;> simp
  simp

@[simp] theorem rxBytes_inputs (bs : List Byte) (s : State) : (rxBytes bs s).inputs = s.inputs := by
  induction bs generalizing s with
  | nil => rfl
  | cons b rest ih => simp [rxBytes, ih]

end Sys2Proof.Machine
end

