-- ==== Sys2Proof/Laws/Steps.lean ====
section
/-! SUPPORT. Steps and runs: the inversion of `step`, and that the receive path neither reads nor writes the stimuli
still to come. -/

namespace Sys2Proof.Machine
open Sys2Proof

/-! ## The receive path neither reads nor writes the stimuli still to come -/

theorem raise_setInputs (e : Err) (i : List Stimulus) (s : State) :
    raise e (setInputs i s) = setInputs i (raise e s) := by
  unfold raise; dsimp only
  split <;> split <;> first | rfl | contradiction

theorem accFinish_setInputs (m : InnerMessage) (e : U17) (i : List Stimulus) (s : State) :
    accFinish m e (setInputs i s) = setInputs i (accFinish m e s) := by
  unfold accFinish
  simp only [setInputs_accCollected, raise_setInputs]
  split_ifs <;> rfl

theorem accStep_setInputs (m : InnerMessage) (i : List Stimulus) (s : State) :
    accStep m (setInputs i s) = setInputs i (accStep m s) := by
  unfold accStep
  simp only [setInputs_accExpected, setInputs_accCollected, setInputs_cfg, raise_setInputs]
  split
  · split_ifs
    · rfl
    · rfl
    · exact accFinish_setInputs m _ i { setAcc _ [m] s with cst := .accumulating }
  · split_ifs
    · rfl
    · exact accFinish_setInputs m _ i (setAcc _ (s.accCollected ++ [m]) s)

theorem dispatch_setInputs (m : InnerMessage) (i : List Stimulus) (s : State) :
    dispatch m (setInputs i s) = setInputs i (dispatch m s) := by
  have hm : matchesPending m (setInputs i s) = matchesPending m s := rfl
  unfold dispatch
  simp only [hm, setInputs_pend, raise_setInputs, accStep_setInputs]
  split_ifs
  · rfl
  · rfl
  · split <;> rfl

theorem innerRx_setInputs (protocol : U16) (body : List Byte) (i : List Stimulus) (s : State) :
    innerRx protocol body (setInputs i s) = setInputs i (innerRx protocol body s) := by
  unfold innerRx
  simp only [setInputs_cfg, setInputs_localAddr2, raise_setInputs, dispatch_setInputs]
  split_ifs
  · rfl
  · split
    · rfl
    · split_ifs <;> rfl

theorem pppDeliver_setInputs (r : Result PppFrame) (i : List Stimulus) (s : State) :
    pppDeliver r (setInputs i s) = setInputs i (pppDeliver r s) := by
  cases r with
  | err e => exact raise_setInputs e i s
  | ok f => exact innerRx_setInputs f.protocol f.body i s

theorem pppByte_setInputs (src : Addr) (b : Byte) (i : List Stimulus) (s : State) :
    pppByte src b (setInputs i s) = setInputs i (pppByte src b s) := by
  have h : ∀ buf, setRb src buf (setInputs i s) = setInputs i (setRb src buf s) := fun _ => rfl
  unfold pppByte
  simp only [setInputs_rb, setInputs_cfg, h, raise_setInputs, pppDeliver_setInputs]
  split_ifs <;> rfl

theorem pppRx_setInputs (src : Addr) (p : List Byte) (i : List Stimulus) (s : State) :
    pppRx src p (setInputs i s) = setInputs i (pppRx src p s) := by
  induction p generalizing s with
  | nil => rfl
  | cons b rest ih =>
    have h : noRoomFor src (setInputs i s) = noRoomFor src s := rfl
    simp only [pppRx, h, raise_setInputs, pppByte_setInputs, ih]
    split_ifs <;> rfl

theorem outerDeliver_setInputs (frame : List Byte) (i : List Stimulus) (s : State) :
    outerDeliver frame (setInputs i s) = setInputs i (outerDeliver frame s) := by
  unfold outerDeliver
  simp only [setInputs_localAddr, setInputs_cfg, pppRx_setInputs]
  split_ifs <;> rfl

theorem rxComplete_setInputs (i : List Stimulus) (s : State) :
    rxComplete (setInputs i s) = setInputs i (rxComplete s) := by
  have h : ∀ buf, setOb buf (setInputs i s) = setInputs i (setOb buf s) := fun _ => rfl
  unfold rxComplete
  simp only [setInputs_ob, h, outerDeliver_setInputs]
  split_ifs <;> rfl

theorem rxByte_setInputs (b : Byte) (i : List Stimulus) (s : State) :
    rxByte b (setInputs i s) = setInputs i (rxByte b s) := by
  have h : ∀ buf t, setOb buf (setInputs i t) = setInputs i (setOb buf t) := fun _ _ => rfl
  unfold rxByte
  simp only [setInputs_ob, h, rxComplete_setInputs, raise_setInputs]
  split_ifs
  · split <;> rfl
  · rfl

theorem rxBytes_setInputs (bs : List Byte) (i : List Stimulus) (s : State) :
    rxBytes bs (setInputs i s) = setInputs i (rxBytes bs s) := by
  induction bs generalizing s with
  | nil => rfl
  | cons b rest ih => simp only [rxBytes, rxByte_setInputs, ih]

/-! ## Steps and runs -/

/-- Everything a step can do: it holds, it runs the instruction of a word, it lets a unit that is none of its
format arrive, it resets, or the environment takes events or transmitted bytes. -/
theorem step_cases {s t : State} (h : step s = .next t) :
    (s.inputs = [] ∧ t = s)
    ∨ (∃ p i rest, s.inputs = .word p :: rest ∧ decode p = .ok i ∧ exec i (setInputs rest s) = .next t)
    ∨ (∃ u why rest, s.inputs = .word (.unit u) :: rest ∧ decode (.unit u) = .error why
      ∧ t = sendUnit u (setInputs rest s))
    ∨ (∃ rest, s.inputs = .hardReset :: rest ∧ t = resetBlock (setInputs rest s))
    ∨ (∃ n rest, s.inputs = .takeEvents n :: rest ∧ t = takeEvents n (setInputs rest s))
    ∨ (∃ n rest, s.inputs = .takeTx n :: rest ∧ t = takeTx n (setInputs rest s)) := by
  unfold step at h
  split at h
  · next hi =>
    exact .inl ⟨hi, (Host.Outcome.next.inj h).symm⟩
  · next p rest hi =>
    split at h
    · next i hd => exact .inr (.inl ⟨p, i, rest, hi, hd, h⟩)
    · next why hd =>
      cases p with
      | command w => cases h
      | rxByte b => cases h
      | unit u => exact .inr (.inr (.inl ⟨u, why, rest, hi, hd, (Host.Outcome.next.inj h).symm⟩))
  · next rest hi => exact .inr (.inr (.inr (.inl ⟨rest, hi, (Host.Outcome.next.inj h).symm⟩)))
  · next n rest hi => exact .inr (.inr (.inr (.inr (.inl ⟨n, rest, hi, (Host.Outcome.next.inj h).symm⟩))))
  · next n rest hi => exact .inr (.inr (.inr (.inr (.inr ⟨n, rest, hi, (Host.Outcome.next.inj h).symm⟩))))

/-- A run whose next step answers a state goes on from there. -/
theorem runFor_succ {k : Nat} {s t : State} (h : step s = .next t) : runFor (k + 1) s = runFor k t := by
  rw [runFor, h]

/-- A step with a byte on the receive port is RX_BYTE of that byte (R190). -/
theorem step_rxByte {b : Byte} {rest : List Stimulus} {s : State} (h : s.inputs = .word (.rxByte b) :: rest) :
    step s = .next (rxByte b (setInputs rest s)) := by
  unfold step; rw [h]; rfl

/-- As many steps as there are bytes on the receive port take them one after the other. -/
theorem runFor_rxBytes {bs : List Byte} {rest : List Stimulus} {s : State}
    (h : s.inputs = bs.map (fun b => .word (.rxByte b)) ++ rest) :
    runFor bs.length s = .next (rxBytes bs (setInputs rest s)) := by
  induction bs generalizing s with
  | nil =>
    have h' : setInputs rest s = s := by rw [← show s.inputs = rest from h]; rfl
    show Host.Outcome.next s = _
    rw [rxBytes, h']
  | cons b bs ih =>
    rw [List.length_cons, runFor_succ (step_rxByte h), ih (by rw [rxByte_inputs]; rfl), rxByte_setInputs, rxBytes,
      rxByte_setInputs]
    rfl

/-- The bytes that arrive are taken one after the other, and what was still to come stays (R15, R190). -/
theorem runFor_arrive (bs : List Byte) (s : State) : runFor bs.length (arrive bs s) = .next (rxBytes bs s) := by
  rw [runFor_rxBytes (arrive_inputs bs s)]; rfl

end Sys2Proof.Machine
end

