-- ==== Sys2Proof/Tests/Slice0.lean ====
section
/-! SUPPORT. The model's own tests: ill-formed terms, words written out from the spec's encodings, the spec's
vectors (spec/95_test_vectors.md, spec/96_test_vectors_machine.md: V<n> in a name or comment is its vector),
and for each statement with hypotheses a witness that meets them. -/

namespace Sys2Proof.Tests
open Sys2Proof Sys2Proof.Machine Sys2Proof.Spec

set_option Elab.async false

/-! ## The vectors' addresses, messages and states (spec/95_test_vectors.md section 0) -/

def adrL : Addr := ⟨0x01, 0x02, 0x03, 0x04, 0x05, 0x06⟩
def adrL2 : Addr := ⟨0x21, 0x22, 0x23, 0x24, 0x25, 0x26⟩
def adrA : Addr := ⟨0xAA, 0xBB, 0xCC, 0xDD, 0xEE, 0x0F⟩
def adrB : Addr := ⟨0xB1, 0xB2, 0xB3, 0xB4, 0xB5, 0xB6⟩
def adrI2 : Addr := ⟨0x31, 0x32, 0x33, 0x34, 0x35, 0x36⟩

/-- A message of zeros. -/
def m0 : InnerMessage := ⟨0, zeroAddr, 0, 0, zeroAddr, 0, 0, 0, 0, 0, false, false, 0, 0, 0, 0, []⟩

/-- `Q0`, a request. -/
def q0 : InnerMessage :=
  { m0 with a2 := 0xA0, to2 := Addr.fill 0xFF, from2 := adrL2, first := true, msgType := 0x0200, subtype := 0x5400,
            arg1 := 0x00260100, arg2 := 0x002601FF }

/-- `RP0`, a reply. -/
def rp0 : InnerMessage :=
  { m0 with a2 := 0xA0, to2 := adrL2, from2 := adrI2, response := true, msgType := 0x0200, subtype := 0x5400,
            arg1 := 0x00260100, arg2 := 0x002601FF }

/-- A reply to tag 1 with these fields. -/
def reply (first : Bool) (pktcount : U16) : InnerMessage := { rp0 with tag := 1, first, pktcount }

/-- V25, the message whose fields are all distinct. -/
def mDistinct : InnerMessage :=
  { a2 := 0x01, to2 := ⟨0xA1, 0xA2, 0xA3, 0xA4, 0xA5, 0xA6⟩, b1 := 0x02, b2 := 0x03,
    from2 := ⟨0xC1, 0xC2, 0xC3, 0xC4, 0xC5, 0xC6⟩, c1 := 0x04, c2 := 0x05, error := 0x0607, pktcount := 0x0809,
    tag := 0x0A0B, first := false, response := false, msgType := 0x0C0E, subtype := 0x0F10, arg1 := 0x11121314,
    arg2 := 0x15161718, extra := [0x19, 0x1A, 0x1B, 0x1C, 0x1D, 0x1E, 0x1F, 0x20] }

/-- The same message packed as an operand (notes/assumptions/5.md). -/
def packedDistinct : List Byte :=
  [0x01, 0xA1, 0xA2, 0xA3, 0xA4, 0xA5, 0xA6, 0x02, 0x03, 0xC1, 0xC2, 0xC3, 0xC4, 0xC5, 0xC6, 0x04, 0x05, 0x07, 0x06,
    0x09, 0x08, 0x0B, 0x0A, 0x00, 0x0E, 0x0C, 0x10, 0x0F, 0x14, 0x13, 0x12, 0x11, 0x18, 0x17, 0x16, 0x15, 0x19,
    0x1A, 0x1B, 0x1C, 0x1D, 0x1E, 0x1F, 0x20]

/-- V25, first row: `RP0` with tag 7 and `first`, on the wire. -/
def rowOne : List Byte :=
  [0x09, 0xA0, 0x21, 0x22, 0x23, 0x24, 0x25, 0x26, 0x00, 0x00, 0x31, 0x32, 0x33, 0x34, 0x35, 0x36, 0x00, 0x00, 0x00,
    0x00, 0x00, 0x00, 0x07, 0x80, 0x01, 0x02, 0x00, 0x54, 0x00, 0x01, 0x26, 0x00, 0xFF, 0x01, 0x26, 0x00]

/-- `E0`, the shortest PPP frame, stuffed. -/
def e0 : List Byte := [0x7E, 0xFF, 0x03, 0x60, 0x65, 0x96, 0x87, 0x7E]

/-- The 18 bytes of an outer frame without payload from L to the broadcast address, type 2 (V15). -/
def hello : List Byte := [0x7E, 0x12, 0x00, 0x6C, 0x01, 0x02, 0x03, 0x04, 0x05, 0x06, 0xFF, 0xFF, 0xFF, 0xFF, 0xFF,
  0xFF, 0x02, 0x00]

/-- The booted state. -/
def booted : State := { State.reset with localAddr := adrL, localAddr2 := adrL2 }

/-- The booted state after ARM of a tag. -/
def waiting (mode : Mode) (tag : U15) : State :=
  { booted with pend := ⟨true, mode, tag⟩, cst := .awaitingFirst }

/-- A MULTI wait for tag 1 that has collected the first of three messages. -/
def collecting : State :=
  { waiting .multi 1 with cst := .accumulating, accExpected := some 3, accCollected := [reply true 2] }

/-- The booted state with finite capacities. -/
def small : State :=
  { booted with cfg := { Config.default with nSrc := some 1, pppBufMax := some 8, accMaxPkts := some 2 } }

/-- The booted state with these bytes kept from source A. -/
def holding (buf : List Byte) : State := { booted with rb := [(adrA, buf)] }

/-- A part of the next state, none if there is none. -/
def got {α : Type} (o : Host.Outcome State Fault Refusal) (f : State → α) : Option α :=
  match o with
  | .next t => some (f t)
  | _ => none

/-- The response of an instruction in the booted state. -/
def answerOf (i : Instr) : Option (Option Response) := got (exec i booted) State.resp

/-- An error answer. -/
def refusal (c : Cause) (info : U16) : Option (Option Response) := some (some (.err ⟨c, info⟩))

/-! ## Well-formedness: an ill-formed term for each check -/

theorem test_wf_illegal_is_unassigned : (Instr.illegal ⟨0x40, []⟩).wf = false
    ∧ (Instr.illegal ⟨0x4A, [0x00]⟩).wf = true := by decide
theorem test_wf_outerDeliver_header : (Instr.outerDeliver []).wf = false := by decide
theorem test_wf_outerDeliver_length : (Instr.outerDeliver (hello ++ [0])).wf = false
    ∧ (Instr.outerDeliver hello).wf = true := by decide
theorem test_wf_pppRx_payload : (Instr.pppRx adrA (List.replicate 95 0)).wf = false
    ∧ (Instr.pppRx adrA (List.replicate 94 0)).wf = true := by decide
theorem test_wf_message_extra_aligned : (Instr.dispatch { m0 with extra := [1, 2, 3] }).wf = false := by decide
theorem test_wf_message_extra_long : (Instr.dispatch { m0 with extra := List.replicate 988 0 }).wf = false
    ∧ (Instr.dispatch { m0 with extra := List.replicate 984 0 }).wf = true := by decide +kernel
theorem test_wf_message_tag : (Instr.dispatch { m0 with tag := 0x8000 }).wf = false := by decide
theorem test_wf_message_type : (Instr.dispatch { m0 with msgType := 0x0201 }).wf = false := by decide
theorem test_wf_accStep_message : (Instr.accStep { rp0 with tag := 0x8000 }).wf = false := by decide
theorem test_wf_accStep_response : (Instr.accStep q0).wf = false := by decide
theorem test_wf_accStep_error : (Instr.accStep { rp0 with error := 1 }).wf = false
    ∧ (Instr.accStep rp0).wf = true := by decide
theorem test_wf_raise_kind : (Instr.raise ⟨.badReg, 0⟩).wf = false ∧ (Instr.raise ⟨.busy, 0⟩).wf = false := by decide
theorem test_wf_escape_pair : (Instr.fmtEscapePair adrA 0x7E).wf = false := by decide
theorem test_wf_outer_frame : (Instr.fmtOuterFrame adrA adrL 1 (List.replicate 95 0)).wf = false := by decide
theorem test_wf_inner_message : (Instr.fmtInnerMessage ⟨adrA, { m0 with tag := 0x8000 }⟩).wf = false := by decide

/-! ## Decoding: a word for every constructor that has one, written out from the spec's encoding -/

theorem test_decode_escEnc :
    decode (.command [0x01, 0x7E, 0x7D]) = .ok (.escEnc [0x7E, 0x7D]) := by decide
theorem test_decode_escDec :
    decode (.command [0x02, 0x7D, 0x5E]) = .ok (.escDec [0x7D, 0x5E]) := by decide
theorem test_decode_stuff :
    decode (.command [0x03]) = .ok (.stuff []) := by decide
theorem test_decode_destuff :
    decode (.command [0x04, 0x7E, 0x7E]) = .ok (.destuff [0x7E, 0x7E]) := by decide
theorem test_decode_crc16 :
    decode (.command [0x08, 0x31]) = .ok (.crc16 [0x31]) := by decide
theorem test_decode_crcAppend :
    decode (.command [0x09, 0xFF, 0x03]) = .ok (.crcAppend [0xFF, 0x03]) := by decide
theorem test_decode_crcCheck :
    decode (.command [0x0A, 0x00, 0x00]) = .ok (.crcCheck [0x00, 0x00]) := by decide
theorem test_decode_outerParse :
    decode (.command [0x10, 0x7E, 0x12]) = .ok (.outerParse [0x7E, 0x12]) := by decide
theorem test_decode_outerBuild :
    decode (.command [0x11, 0x01, 0x02, 0x03, 0x04, 0x05, 0x06, 0xAA, 0xBB, 0xCC, 0xDD, 0xEE, 0x0F, 0x34, 0x12, 0x55])
      = .ok (.outerBuild adrL adrA 0x1234 [0x55]) := by decide
theorem test_decode_outerFilter :
    decode (.command [0x12, 0x01, 0x02, 0x03, 0x04, 0x05, 0x06]) = .ok (.outerFilter adrL) := by decide
theorem test_decode_pppExtract :
    decode (.command [0x18, 0x7E, 0x7E]) = .ok (.pppExtract [0x7E, 0x7E]) := by decide
theorem test_decode_pppBuild :
    decode (.command [0x19, 0x60, 0x65, 0x01]) = .ok (.pppBuild 0x6560 [0x01]) := by decide
theorem test_decode_innerParse :
    decode (.command [0x20, 0x09]) = .ok (.innerParse [0x09]) := by decide
theorem test_decode_innerBuild :
    decode (.command (0x21 :: packedDistinct)) = .ok (.innerBuild mDistinct) := by decide
theorem test_decode_innerFilter :
    decode (.command [0x22, 0x21, 0x22, 0x23, 0x24, 0x25, 0x26]) = .ok (.innerFilter adrL2) := by decide
theorem test_decode_reset :
    decode (.command [0x40]) = .ok (.reset) := by decide
theorem test_decode_setaddr :
    decode (.command [0x41, 0x01, 0x02, 0x03, 0x04, 0x05, 0x06]) = .ok (.setaddr adrL) := by decide
theorem test_decode_setaddr2 :
    decode (.command [0x42, 0x01, 0x02, 0x03, 0x04, 0x05, 0x06]) = .ok (.setaddr2 adrL) := by decide
theorem test_decode_tagalloc :
    decode (.command [0x43]) = .ok (.tagalloc) := by decide
theorem test_decode_arm :
    decode (.command [0x44, 0xFF, 0x7F, 0x01]) = .ok (.arm 0x7FFF .multi) := by decide
theorem test_decode_send :
    decode (.command ([0x45, 0x00] ++ packedDistinct)) = .ok (.send mDistinct none none none) := by decide
theorem test_decode_send_operands :
    decode (.command ([0x45, 0x07, 0x01, 0x02, 0x03, 0x04, 0x05, 0x06, 0xAA, 0xBB, 0xCC, 0xDD, 0xEE, 0x0F, 0x08,
      0x00] ++ packedDistinct))
      = .ok (.send mDistinct (some adrL) (some adrA) (some 8)) := by decide
theorem test_decode_request :
    decode (.command ([0x46, 0x00] ++ packedDistinct)) = .ok (.request mDistinct .single) := by decide
theorem test_decode_abort :
    decode (.command [0x47]) = .ok (.abort) := by decide
theorem test_decode_flush :
    decode (.command [0x48]) = .ok (.flush) := by decide
theorem test_decode_rdreg :
    decode (.command [0x49, 0x09]) = .ok (.rdreg 9) := by decide
theorem test_decode_illegal :
    decode (.command [0xFF]) = .ok (.illegal ⟨0xFF, []⟩) := by decide
theorem test_decode_illegal_operands :
    decode (.command [0x4A, 0x00]) = .ok (.illegal ⟨0x4A, [0x00]⟩) := by decide
theorem test_decode_rxByte :
    decode (.rxByte 0x7E) = .ok (.rxByte 0x7E) := by decide
theorem test_decode_escapePair :
    decode (.unit (.symbol adrA [0x7D, 0x31])) = .ok (.fmtEscapePair adrA 0x31) := by decide
theorem test_decode_flag :
    decode (.unit (.symbol adrA [0x7E])) = .ok (.fmtFlag adrA) := by decide
theorem test_decode_outerFrame :
    decode (.unit (.outerFrame [0x7E, 0x13, 0x00, 0x6D, 0xAA, 0xBB, 0xCC, 0xDD, 0xEE, 0x0F, 0x01, 0x02, 0x03, 0x04,
      0x05, 0x06, 0x02, 0x00, 0xAB]))
      = .ok (.fmtOuterFrame adrA adrL 2 [0xAB]) := by decide
theorem test_decode_pppFrame :
    decode (.unit (.pppFrame adrA [0xFF, 0x03, 0x21, 0x00, 0x01, 0x02, 0x4B, 0xBE]))
      = .ok (.fmtPppFrame adrA 0x0021 [0x01, 0x02]) := by decide +kernel
theorem test_decode_innerMessage :
    decode (.unit (.innerMessage adrA rowOne))
      = .ok (.fmtInnerMessage ⟨adrA, { rp0 with tag := 7, first := true }⟩) := by decide

theorem test_no_word_for_internal_steps :
    encode (.outerDeliver hello) = none ∧ encode (.pppRx adrA []) = none ∧ encode (.innerRx 0 []) = none
    ∧ encode (.dispatch m0) = none ∧ encode (.accStep m0) = none ∧ encode (.raise ⟨.pppCrc, 0⟩) = none := by decide
theorem test_decode_refuses_empty : decode (.command []) = .error .emptyWord := by decide
theorem test_decode_refuses_truncated : decode (.command [0x44, 0x01, 0x00]) = .error .truncatedOperands := by decide
theorem test_decode_refuses_trailing : decode (.command [0x40, 0x00]) = .error .trailingBytes := by decide
theorem test_decode_refuses_selector : decode (.command [0x44, 0x01, 0x00, 0x02]) = .error .reservedSelector :=
  by decide
theorem test_decode_refuses_present_bits :
    decode (.command ([0x45, 0x08] ++ packedDistinct)) = .error .reservedSelector := by decide
theorem test_decode_refuses_symbol : decode (.unit (.symbol adrA [0x7D, 0x7E])) = .error .notASymbol
    ∧ decode (.unit (.symbol adrA [0x41])) = .error .notASymbol := by decide
theorem test_decode_refuses_unit :
    decode (.unit (.outerFrame (hello ++ [0]))) = .error (.notAUnit ⟨.outLen, 0x12⟩)
    ∧ decode (.unit (.pppFrame adrA [0xFF, 0x03, 0x60, 0x65, 0x87, 0x96])) = .error (.notAUnit ⟨.pppCrc, 0⟩)
    ∧ decode (.unit (.innerMessage adrA [])) = .error (.notAUnit ⟨.innerShort, 0⟩) := by decide +kernel

/-- The table's words of one byte and of two (notes/assumptions/9.md). -/
theorem test_table_words :
    decodeTableWord 8 0x40 = some .reset ∧ decodeTableWord 8 0x7E = some (.fmtFlag zeroAddr)
    ∧ decodeTableWord 16 0x7D5E = some (.fmtEscapePair zeroAddr 0x5E)
    ∧ decodeTableWord 8 0x44 = some (.arm 0 .single) ∧ decodeTableWord 8 0x46 = some (.request m0 .single) := by
  decide

/-- The word that `withFetchWord` presents is the one the next step runs. -/
theorem test_fetch_runs_the_word :
    got (step (State.reset.withFetchWord 8 0x43)) (fun t => (t.tagctr, t.resp)) = some (1, some (.ok (.tag 0)))
    ∧ got (step (State.reset.withFetchWord 16 0x7D5E)) (fun t => t.inputs.length) = some 20 := by
  decide
theorem test_step_refuses_undecodable :
    step (present (.command [0x40, 0x00]) booted) = .refused (.undecodable .trailingBytes) := rfl

/-- R372: the opcode is tested before the operands. -/
theorem test_step_illegal_with_operands :
    got (step (present (.command [0x4A, 0x00]) booted)) State.resp = some (some (.err ⟨.badOpcode, 0x4A⟩)) :=
      by decide

/-- Bytes that are no outer frame come in all the same. -/
theorem test_step_lets_any_unit_arrive :
    got (step (present (.unit (.outerFrame [0x41])) booted)) State.inputs = some [.word (.rxByte 0x41)] := by decide
theorem test_step_environment :
    got (step { booted with inputs := [.takeEvents 1], evq := [.aborted 1,
      .aborted 2] }) State.evq = some [.aborted 2]
    ∧ got (step { booted with inputs := [.takeTx 2], txq := [1, 2, 3] }) State.txq = some [3]
    ∧ got (step { waiting .multi 1 with inputs := [.hardReset] }) (fun t => (t.localAddr, t.pend.valid, t.resp))
      = some (zeroAddr, false, none) := by decide

/-! ## The pure functions on the spec's vectors -/

theorem test_escEnc_V1 :
    answerOf (.escEnc [0x7E, 0x7D, 0x11, 0x13, 0x12, 0x5E]) = some (some (.ok (.bytes [0x7D, 0x5E, 0x7D, 0x5D, 0x7D,
      0x31, 0x7D, 0x33, 0x12, 0x5E]))) := by decide
theorem test_escDec_V3 :
    answerOf (.escDec [0x7D, 0xFF, 0x7E, 0x11]) = some (some (.ok (.bytes [0xDF, 0x7E, 0x11])))
    ∧ answerOf (.escDec [0x41, 0x7D]) = refusal .truncEsc 0 := by decide
theorem test_stuff_V1 :
    answerOf (.stuff [0x01, 0x7E, 0x02]) = some (some (.ok (.bytes [0x7E, 0x01, 0x7D, 0x5E, 0x02, 0x7E])))
      ∧ answerOf (.stuff []) = some (some (.ok (.bytes [0x7E, 0x7E]))) := by decide
theorem test_destuff_V2 :
    answerOf (.destuff [0x7E, 0x7D, 0x41, 0x7E]) = some (some (.ok (.bytes [0x61])))
    ∧ answerOf (.destuff [0x7E, 0x7D, 0x7D, 0x7D, 0x7E]) = refusal .truncEsc 0 := by decide
theorem test_destuff_flags_V2 :
    answerOf (.destuff [0x41, 0x7E]) = refusal .noOpenFlag 0 ∧ answerOf (.destuff [0x7E]) = refusal .badTerm 0
    ∧ answerOf (.destuff [0x7E, 0x41, 0x7E, 0x42, 0x7E]) = refusal .badTerm 0 := by decide
theorem test_crc16_V10 :
    answerOf (.crc16 [0x31, 0x32, 0x33, 0x34, 0x35, 0x36, 0x37, 0x38, 0x39]) = some (some (.ok (.u16 0x906E))) :=
      by decide +kernel
theorem test_crc16_V11 :
    answerOf (.crc16 [0x01]) = some (some (.ok (.u16 0xE1F1))) ∧ answerOf (.crc16 [])
      = some (some (.ok (.u16 0))) := by decide
theorem test_crcAppend_V10 :
    answerOf (.crcAppend [0xFF, 0x03, 0x60, 0x65]) = some (some (.ok (.bytes [0xFF, 0x03, 0x60, 0x65, 0x96,
      0x87]))) := by decide +kernel
theorem test_crcCheck_V13 :
    answerOf (.crcCheck [0x00, 0x78, 0xF0]) = some (some (.ok .none))
    ∧ answerOf (.crcCheck [0xFF, 0x03, 0x60, 0x65, 0x87, 0x96]) = refusal .pppCrc 0 ∧ answerOf (.crcCheck [0x96])
      = refusal .pppShort 0 := by decide +kernel
theorem test_outerParse_V16 :
    answerOf (.outerParse [0x7E, 0x70, 0x00, 0x0E, 0xAA, 0xBB, 0xCC, 0xDD, 0xEE, 0x0F, 0x01, 0x02, 0x03, 0x04, 0x05,
      0x06, 0x01, 0x00])
      = some (some (.ok (.outerHeader 0x70 adrA adrL 0x0001))) := by decide
theorem test_outerParse_errors_V16 :
    answerOf (.outerParse [0x7E, 0x71, 0x01, 0x00, 0xAA, 0xBB, 0xCC, 0xDD, 0xEE, 0x0F, 0x01, 0x02, 0x03, 0x04, 0x05,
      0x06, 0x01, 0x00]) = refusal .outLen 0x71
    ∧ answerOf (.outerParse [0x7E, 0x11, 0x00, 0x00, 0xAA, 0xBB, 0xCC, 0xDD, 0xEE, 0x0F, 0x01, 0x02, 0x03, 0x04,
      0x05, 0x06, 0x01, 0x00]) = refusal .outCksum 0
    ∧ answerOf (.outerParse [0x7E, 0x11, 0x00, 0x6F, 0xAA, 0xBB, 0xCC, 0xDD, 0xEE, 0x0F, 0x01, 0x02, 0x03, 0x04,
      0x05, 0x06, 0x01, 0x00]) = refusal .outLenSmall 0x11 := by decide
theorem test_outerBuild_V15 :
    answerOf (.outerBuild adrA adrL 0x1234 [0x7E, 0x7D, 0x11])
      = some (some (.ok (.bytes [0x7E, 0x15, 0x00, 0x6B, 0xAA, 0xBB, 0xCC, 0xDD, 0xEE, 0x0F, 0x01, 0x02, 0x03, 0x04,
        0x05, 0x06, 0x34, 0x12, 0x7E, 0x7D, 0x11]))) := by decide
theorem test_outerBuild_limit_V15 :
    answerOf (.outerBuild adrL adrA 1 (List.replicate 95 0)) = refusal .outTooLong 0x71 := by decide
theorem test_outerFilter_V17 :
    answerOf (.outerFilter adrL) = some (some (.ok (.bit true)))
    ∧ answerOf (.outerFilter ⟨1, 2, 3, 4, 5, 7⟩) = some (some (.ok (.bit false))) := by decide
theorem test_pppExtract_V21 :
    answerOf (.pppExtract [0x7E, 0xFF, 0x03, 0x21, 0x00, 0x01, 0x02, 0x4B, 0xBE, 0x7E])
      = some (some (.ok (.pppFrame 0x0021 [0x01, 0x02]))) := by decide +kernel
theorem test_pppExtract_errors_V21 :
    answerOf (.pppExtract [0x7E, 0xFE, 0x03, 0x60, 0x65, 0x00, 0x00, 0x7E]) = refusal .badMarker 0x03FE
    ∧ answerOf (.pppExtract [0x7E, 0xFF, 0x03, 0x60, 0x65, 0x96, 0x7E]) = refusal .pppShort 5 := by decide
theorem test_pppBuild_V20 :
    answerOf (.pppBuild 0x7E7D [0x11, 0x13])
      = some (some (.ok (.bytes [0x7E, 0xFF, 0x03, 0x7D, 0x5D, 0x7D, 0x5E, 0x7D, 0x31, 0x7D, 0x33, 0x33, 0xF8,
        0x7E]))) := by decide +kernel
theorem test_innerParse_V25 :
    answerOf (.innerParse rowOne) = some (some (.ok (.message { rp0 with tag := 7, first := true }))) := by decide
theorem test_innerParse_errors_V26 :
    answerOf (.innerParse (rowOne ++ [0, 0])) = refusal .innerLen 9
    ∧ answerOf (.innerParse (rowOne.take 35)) = refusal .innerShort 0x23 := by decide
theorem test_innerBuild_V25 :
    answerOf (.innerBuild { rp0 with tag := 7, first := true }) = some (some (.ok (.bytes rowOne))) := by decide
theorem test_innerBuild_errors_V27 :
    answerOf (.innerBuild { rp0 with extra := List.replicate 6 0, tag := 0x8000 }) = refusal .extraAlign 2
    ∧ answerOf (.innerBuild { rp0 with tag := 0x8000, msgType := 0x0201 }) = refusal .tagRange 0
    ∧ answerOf (.innerBuild { rp0 with msgType := 0x0201 }) = refusal .typeBit0 0x0201 := by decide
theorem test_innerFilter_V28 :
    answerOf (.innerFilter adrL2) = some (some (.ok (.bit true)))
    ∧ answerOf (.innerFilter zeroAddr) = some (some (.ok (.bit false))) := by decide

/-! ## Commands on the spec's vectors -/

theorem test_reset_V47 :
    got (exec .reset collecting) (fun t => (t.localAddr, t.pend, t.cst, t.resp))
      = some (zeroAddr, ⟨false, .single, 0⟩, .idle, some (.ok .none)) := by decide
theorem test_setaddr_V44 :
    got (exec (.setaddr adrA) booted) State.localAddr = some adrA
    ∧ got (exec (.setaddr adrA) (waiting .multi 3)) (fun t => (t.localAddr, t.resp))
      = some (adrL, some (.err ⟨.busy, 3⟩)) := by decide
theorem test_setaddr2_V44 :
    got (exec (.setaddr2 adrA) booted) State.localAddr2 = some adrA
    ∧ got (exec (.setaddr2 adrA) (waiting .multi 3)) (fun t => (t.localAddr2, t.resp))
      = some (adrL2, some (.err ⟨.busy, 3⟩)) := by decide
theorem test_tagalloc_V43 :
    got (exec .tagalloc { booted with tagctr := 0x7FFF }) (fun t => (t.resp, t.tagctr))
      = some (some (.ok (.tag 0x7FFF)), 0)
    ∧ got (exec .tagalloc { waiting .single 0x7FFF with tagctr := 0x7FFF }) (fun t => (t.resp, t.tagctr))
      = some (some (.ok (.tag 0)), 1) := by decide
theorem test_arm_V44 :
    got (exec (.arm 3 .multi) booted) (fun t => (t.pend, t.cst)) = some (⟨true, .multi, 3⟩, .awaitingFirst)
    ∧ answerOf (.arm 0x8000 .single) = refusal .tagRange 0 := by decide
/-- V40: what SEND of `Q0` with tag 0x11 transmits. -/
def sentQ0 : List Byte :=
  [0x7E, 0x3F, 0x00, 0x41, 0x01, 0x02, 0x03, 0x04, 0x05, 0x06, 0xFF, 0xFF, 0xFF, 0xFF, 0xFF, 0xFF, 0x01, 0x00, 0x7E,
    0xFF, 0x03, 0x60, 0x65, 0x09, 0xA0, 0xFF, 0xFF, 0xFF, 0xFF, 0xFF, 0xFF, 0x00, 0x00, 0x21, 0x22, 0x23, 0x24,
    0x25, 0x26, 0x00, 0x00, 0x00, 0x00, 0x00, 0x00, 0x7D, 0x31, 0x80, 0x00, 0x02, 0x00, 0x54, 0x00, 0x01, 0x26,
    0x00, 0xFF, 0x01, 0x26, 0x00, 0x61, 0xD9, 0x7E]

theorem test_send_V40 :
    got (exec (.send { q0 with tag := 0x11 } none none none) booted) (fun t => (t.txq, t.pend.valid, t.resp))
      = some (sentQ0, false, some (.ok .none)) := by decide +kernel
/-- A message whose outer frame is 112 bytes long: 24 bytes of `extra` and 26 reserved bytes (R67). -/
def longest : InnerMessage := { m0 with b1 := 0x7E, b2 := 0x7E, extra := List.replicate 24 0x7E }

theorem test_send_limit_R67 :
    answerOf (.send { longest with c1 := 0x7E } none none none) = refusal .outTooLong 0x71 := by decide +kernel
theorem test_request_P1 :
    got (exec (.request q0 .single) { booted with tagctr := 0x11 }) (fun t => (t.txq, t.tagctr, t.pend, t.resp))
      = some (sentQ0, 0x12, ⟨true, .single, 0x11⟩, some (.ok (.tag 0x11))) := by decide +kernel
theorem test_request_refused_V45 :
    got (exec (.request { q0 with extra := [1, 2, 3] } .single) { booted with tagctr := 9 })
        (fun t => (t.tagctr, t.pend.valid, t.resp)) = some (9, false, some (.err ⟨.extraAlign, 3⟩)) := by decide
theorem test_abort_V48 :
    got (exec .abort collecting) (fun t => (t.evq, t.cst, t.accExpected, t.pend))
      = some ([.aborted 1], .idle, none, ⟨false, .multi, 1⟩)
    ∧ got (exec .abort booted) (fun t => (t.evq, t.resp)) = some ([], some (.ok .none)) := by decide
theorem test_flush_V46 :
    got (exec .flush { holding [0x7E, 0xFF] with ob := [0x7E, 0x20, 0x00] }) (fun t => (t.ob, t.rb, t.localAddr))
      = some ([], [], adrL) := by decide
theorem test_rdreg_V44 :
    got (exec (.rdreg 3) (waiting .multi 3)) State.resp = some (some (.ok (.nat 0x18003)))
    ∧ got (exec (.rdreg 5) { waiting .multi 3 with accExpected := some 0x10000 }) State.resp
      = some (some (.ok (.nat 0x30000))) := by decide
theorem test_rdreg_V49 :
    answerOf (.rdreg 0) = some (some (.ok (.addr adrL))) ∧ answerOf (.rdreg 10) = refusal .badReg 0xA := by decide
theorem test_illegal_V49 :
    answerOf (.illegal ⟨0x4A, []⟩) = refusal .badOpcode 0x4A
    ∧ answerOf (.illegal ⟨0x00, [0x01]⟩) = refusal .badOpcode 0 := by decide
theorem test_reset_satisfies_every_invariant :
    inv State.reset = true := by decide

/-! ## The receive path on the spec's vectors -/

theorem test_rxByte_V18e :
    got (exec (.rxByte 0x00) { booted with ob := [0x7F, 0x13, 0x00, 0x6D, 0xAA, 0xBB, 0xCC, 0xDD, 0xEE, 0x0F, 0x01,
      0x02, 0x03, 0x04, 0x05, 0x06, 0x02] }) (fun t => (t.evq, t.ob, t.esr))
      = some ([.error ⟨.outStart, 0x7F⟩], [], 0x01) := by decide
theorem test_rxByte_V18 :
    got (exec (.rxByte 0xAB) { booted with ob := [0x7E, 0x13, 0x00, 0x6D, 0xAA, 0xBB, 0xCC, 0xDD, 0xEE, 0x0F, 0x01,
      0x02, 0x03, 0x04, 0x05, 0x06, 0x02, 0x00] }) (fun t => (t.evq, t.ob))
      = some ([.outer adrA adrL 2 [0xAB]], []) := by decide
theorem test_outerDeliver_V18d :
    got (exec (.outerDeliver [0x7E, 0x15, 0x00, 0x6B, 0xAA, 0xBB, 0xCC, 0xDD, 0xEE, 0x0F, 0x01, 0x02, 0x03, 0x04,
      0x05, 0x06, 0x34, 0x12, 0x01, 0x02, 0x03]) booted) State.evq
      = some [.outer adrA adrL 0x1234 [0x01, 0x02, 0x03]] := by decide
theorem test_outerDeliver_V18a :
    got (exec (.outerDeliver [0x7E, 0x13, 0x00, 0x6D, 0xAA, 0xBB, 0xCC, 0xDD, 0xEE, 0x0F, 0x01, 0x02, 0x03, 0x04,
      0x05, 0x07, 0x02, 0x00, 0x55]) booted) State.evq = some [] := by decide
theorem test_pppRx_V22d :
    got (exec (.pppRx adrA [0x7E, 0xFF, 0x03, 0x60, 0x65, 0x96, 0x87, 0x7E, 0xFF, 0x03, 0x60, 0x65, 0x96, 0x87,
      0x7E]) booted) (fun t => (t.evq, t.esr, t.rb))
      = some ([.error ⟨.innerShort, 0⟩, .error ⟨.noOpenFlag, 0⟩], 0x05, []) := by decide +kernel
theorem test_pppRx_V23b :
    got (exec (.pppRx adrA [0x7E, 0x01, 0x02, 0x03, 0x04, 0x05, 0x06, 0x07, 0x08, 0x09, 0x0A,
      0x7E]) small) (fun t => (t.evq, t.esr))
      = some ([.error ⟨.pppBufOverflow, 0⟩, .error ⟨.noOpenFlag, 0⟩], 0x41) := by decide
theorem test_innerRx_V28 :
    got (exec (.innerRx 0x0021 []) booted) State.evq = some [.error ⟨.wrongProtocol, 0x21⟩]
    ∧ got (exec (.innerRx 0x6560 []) booted) State.evq = some [.error ⟨.innerShort, 0⟩] := by decide
theorem test_dispatch_P5 :
    got (exec (.dispatch { rp0 with tag := 7 }) (waiting .single 7)) (fun t => (t.evq, t.cst, t.pend))
      = some ([.resultSingle { rp0 with tag := 7 }], .complete, ⟨false, .single, 7⟩)
    ∧ got (exec (.dispatch { rp0 with tag := 6 }) (waiting .single 7)) (fun t => (t.evq, t.cst)) = some ([],
      .awaitingFirst) := by decide
theorem test_dispatch_V31h :
    got (exec (.dispatch { reply false 5 with error := 0x8001 }) (waiting .multi 1)) (fun t => (t.evq, t.cst, t.esr))
      = some ([.error ⟨.device, 0x8001⟩], .failed, 0x08) := by decide
theorem test_accStep_V31i :
    got (exec (.accStep (reply true 0xFFFF)) (waiting .multi 1)) (fun t => (t.accExpected, t.accCollected.length,
      t.cst))
      = some (some 65536, 1, .accumulating) := by decide
theorem test_accStep_V31d :
    got (exec (.accStep (reply false 0)) collecting) (fun t => (t.evq, t.cst, t.accCollected))
      = some ([.error ⟨.outOfOrder, 0⟩], .failed, []) := by decide
theorem test_raise_P4 :
    got (exec (.raise ⟨.pppCrc, 0⟩) collecting) (fun t => (t.evq, t.cst, t.esr, t.pend, t.accExpected))
      = some ([.error ⟨.pppCrc, 0⟩], .failed, 0x02, ⟨false, .multi, 1⟩, none) := by decide

/-! ## The units of the wire formats: the bytes that come in -/

/-- Bytes as the stimuli of the receive port. -/
def bytesIn (bs : List Byte) : List Stimulus := bs.map (fun b => .word (.rxByte b))

theorem test_escapePair_arrives :
    got (exec (.fmtEscapePair adrA 0x5E) booted) State.inputs
      = some (bytesIn [0x7E, 0x14, 0x00, 0x6A, 0xAA, 0xBB, 0xCC, 0xDD, 0xEE, 0x0F, 0xFF, 0xFF, 0xFF, 0xFF, 0xFF,
        0xFF, 0x01, 0x00, 0x7D, 0x5E]) := by decide
theorem test_flag_arrives :
    got (exec (.fmtFlag adrA) booted) (fun t => (t.inputs, t.rb))
      = some (bytesIn [0x7E, 0x13, 0x00, 0x6D, 0xAA, 0xBB, 0xCC, 0xDD, 0xEE, 0x0F, 0xFF, 0xFF, 0xFF, 0xFF, 0xFF,
        0xFF, 0x01, 0x00, 0x7E], []) := by decide
theorem test_outerFrame_arrives_V15 :
    got (exec (.fmtOuterFrame adrL (Addr.fill 0xFF) 2 []) booted) State.inputs = some (bytesIn hello) := by decide
theorem test_pppFrame_arrives :
    got (exec (.fmtPppFrame adrA 0x6560 []) booted) State.inputs
      = some (bytesIn ([0x7E, 0x1A, 0x00, 0x64, 0xAA, 0xBB, 0xCC, 0xDD, 0xEE, 0x0F, 0xFF, 0xFF, 0xFF, 0xFF, 0xFF,
        0xFF, 0x01, 0x00] ++ e0)) := by decide +kernel
theorem test_innerMessage_arrives_V40 :
    got (exec (.fmtInnerMessage ⟨adrL, { q0 with tag := 0x11 }⟩) booted) State.inputs = some (bytesIn sentQ0) :=
      by decide +kernel
theorem test_long_stream_is_cut :
    (cut 95 (List.replicate 95 0)).map List.length = [94, 1] := by decide +kernel
theorem test_pppRx_flag_V22b :
    got (exec (.pppRx adrA [0x7E]) booted) State.rb = some [(adrA, [0x7E])]
    ∧ got (exec (.pppRx adrA [0x7E]) (holding [0x7E])) (fun t => (t.evq, t.rb)) = some ([.error ⟨.pppShort, 0⟩],
      []) := by decide
theorem test_pppRx_no_open_flag_V22e :
    got (exec (.pppRx adrA [0x41, 0x42]) booted) State.rb = some [(adrA, [0x41, 0x42])] := by decide

/-! ## Witnesses: for each statement with hypotheses, a state and operands that meet them -/

/-- A part of the next state is what it is only if there is a next state. -/
theorem next_of_got {α : Type} {o : Host.Outcome State Fault Refusal} {f : State → α} {a : α}
    (h : got o f = some a) : ∃ t, o = .next t ∧ f t = a := by
  cases o with
  | next t => exact ⟨t, rfl, Option.some.inj h⟩
  | fault r => cases h
  | refused r => cases h

theorem room_of {src : Addr} {s : State} {n : Nat} (h : s.cfg.nSrc = some n) (hl : s.rb.length ≠ n) :
    hasRoom src s := .inr fun k hk => by rw [h] at hk; cases hk; exact hl

theorem fits_of {k c : Nat} {s : State} (h : s.cfg.pppBufMax = some c) (hc : k ≤ c) : fitsBuffer k s :=
  fun d hd => by rw [h] at hd; cases hd; exact hc

theorem answered_of {r r' : Response} (s : State) (h : r = r') : answered s r = answered s r' := by rw [h]

/-- The booted state with room for one source, buffers of `c` bytes and three packets. -/
def tight (c : Nat) : State :=
  { booted with cfg := { Config.default with nSrc := some 1, pppBufMax := some c, accMaxPkts := some 3 } }

/-- The 18 bytes of a header from A to L with type 1 and these first four bytes. -/
def header (b0 len rsvd ck : Byte) : List Byte := [b0, len, rsvd, ck] ++ adrA.bytes ++ adrL.bytes ++ [1, 0]

theorem test_witness_EscEncReplacesReservedBytes : (([0x7E] : List Byte).flatMap escaped)[0]? = some 0x7D := by decide

theorem test_witness_DestuffChecksFlagsThenDecodes :
    ([] : List Byte).head? ≠ some 0x7E
    ∧ (([0x7E] : List Byte).head? = some 0x7E ∧ ([0x7E] : List Byte).length < 2)
    ∧ (([0x7E, 0x41] : List Byte).head? = some 0x7E ∧ ([0x7E, 0x41] : List Byte).getLast? ≠ some 0x7E)
    ∧ (0x7E : Byte) ∈ [(0x7E : Byte)] ∧ (0x7E : Byte) ∉ [(0x7D : Byte)] := by decide

theorem test_witness_OneChangedByteChangesCrc :
    ∃ t, exec (.crc16 ([0x01] ++ [0x02] ++ [0x03])) booted = .next t
      ∧ exec (.crc16 ([0x01] ++ [0x02] ++ [0x03])) booted = .next t := ⟨_, rfl, rfl⟩

theorem test_witness_CrcCheckComparesTheLastTwoBytes :
    ([0x96] : List Byte).length < 2 ∧ tableCrc [] ≠ word 0x01 0x00 ∧ tableCrc [] = word 0x00 0x00
    ∧ tableCrc [0x00] = word 0x78 0xF0 := by decide +kernel

theorem test_witness_OuterParseTestsInOrder :
    (hello.take 17).length < 18
    ∧ header 0x7F 0x12 0x00 0x6C = 0x7F :: 0x12 :: 0x00 :: 0x6C :: (header 0x7F 0x12 0x00 0x6C).drop 4
    ∧ 14 ≤ ((header 0x7F 0x12 0x00 0x6C).drop 4).length
    ∧ (0x7F : Byte) ≠ 0x7E ∧ 0x70 < (0x71 : Byte).toNat ∧ (0x01 : Byte) ≠ 0
    ∧ (0x12 : Byte).toNat ≤ 0x70 ∧ (0x6D : Byte) ≠ 0x7E ^^^ 0x12
    ∧ (0x11 : Byte).toNat < 18 ∧ (0x6F : Byte) = 0x7E ^^^ 0x11
    ∧ 18 ≤ (0x12 : Byte).toNat ∧ (0x70 : Byte).toNat ≤ 0x70 ∧ (0x6C : Byte) = 0x7E ^^^ 0x12
    ∧ (0x0E : Byte) = 0x7E ^^^ 0x70
    ∧ hello.drop 4 = adrL.bytes ++ (Addr.fill 0xFF).bytes ++ [0x02, 0x00] ++ [] := by decide

theorem test_witness_OuterBuildLaysOutTheFrame :
    (List.replicate 94 (0 : Byte)).length ≤ 94 ∧ 94 < (List.replicate 95 (0 : Byte)).length := by decide

theorem test_witness_OuterParseReadsWhatOuterBuildBuilt :
    exec (.outerBuild adrL (Addr.fill 0xFF) 2 []) booted = answered booted (.ok (.bytes hello)) :=
  answered_of booted (by decide)

theorem test_witness_PppExtractTestsInOrder :
    destuff [] = .err ⟨.noOpenFlag, 0⟩
    ∧ (destuff [0x7E, 0xFF, 0x03, 0x60, 0x65, 0x96, 0x7E] = .ok [0xFF, 0x03, 0x60, 0x65, 0x96]
      ∧ ([0xFF, 0x03, 0x60, 0x65, 0x96] : List Byte).length < 6)
    ∧ (destuff [0x7E, 0xFF, 0x02, 0x60, 0x65, 0x00, 0x00, 0x7E] = .ok [0xFF, 0x02, 0x60, 0x65, 0x00, 0x00]
      ∧ 6 ≤ ([0xFF, 0x02, 0x60, 0x65, 0x00, 0x00] : List Byte).length
      ∧ ([0xFF, 0x02, 0x60, 0x65, 0x00, 0x00] : List Byte).take 2 = [0xFF, 0x02] ∧ (0x02 : Byte) ≠ 0x03)
    ∧ (destuff [0x7E, 0xFF, 0x03, 0x60, 0x65, 0x87, 0x96, 0x7E] = .ok ([0xFF, 0x03, 0x60, 0x65] ++ [] ++ [0x87, 0x96])
      ∧ tableCrc ([0xFF, 0x03, 0x60, 0x65] ++ []) ≠ word 0x87 0x96)
    ∧ (destuff e0 = .ok ([0xFF, 0x03, 0x60, 0x65] ++ [] ++ [0x96, 0x87])
      ∧ tableCrc ([0xFF, 0x03, 0x60, 0x65] ++ []) = word 0x96 0x87) := by decide +kernel

theorem test_witness_PppBuildStuffsTheWholeFrame :
    ([0xFF, 0x03, 0x60, 0x65] : List Byte) = [0xFF, 0x03, octet (0x6560 : U16) 0, octet (0x6560 : U16) 1] ++ [] :=
      by decide

theorem test_witness_PppExtractUndoesPppBuild :
    exec (.pppBuild 0x6560 []) booted = answered booted (.ok (.bytes e0)) := answered_of booted (by decide +kernel)

theorem test_witness_InnerParseReadsEveryField :
    (rowOne.take 35).length < 36
    ∧ (36 ≤ (0x0A :: rowOne.tail).length ∧ (0x0A : Byte).toNat * 4 ≠ (0x0A :: rowOne.tail).length)
    ∧ (rowOne = [0x09, 0xA0] ++ adrL2.bytes ++ [0x00, 0x00] ++ adrI2.bytes
        ++ [0x00, 0x00, 0x00, 0x00, 0x00, 0x00, 0x07, 0x80, 0x01, 0x02, 0x00, 0x54, 0x00, 0x01, 0x26, 0x00, 0xFF,
          0x01,
            0x26, 0x00] ++ []
      ∧ (0x09 : Byte).toNat * 4 = rowOne.length) := by decide

theorem test_witness_InnerBuildLaysOutEveryField :
    ({ m0 with extra := [1, 2, 3] } : InnerMessage).extra.length % 4 ≠ 0
    ∧ ((List.replicate 988 (0 : Byte)).length % 4 = 0 ∧ 984 < (List.replicate 988 (0 : Byte)).length)
    ∧ (m0.extra.length % 4 = 0 ∧ 0x7FFF < (0x8000 : U16).toNat ∧ (0x0201 : U16).getLsbD 0 = true)
    ∧ ({ m0 with extra := List.replicate 984 0, tag := 0x7FFF, msgType := 0xFFFE } : InnerMessage).wf = true := by
  decide +kernel

theorem test_witness_InnerParseAndBuildAreInverse :
    ({ rp0 with tag := 7, first := true } : InnerMessage).wf = true
    ∧ exec (.innerBuild { rp0 with tag := 7, first := true }) booted = answered booted (.ok (.bytes rowOne))
    ∧ exec (.innerParse rowOne) booted = answered booted (.ok (.message { rp0 with tag := 7, first := true })) :=
  ⟨by decide, answered_of booted (by decide), answered_of booted (by decide)⟩

theorem test_witness_ResetGivesEveryFieldItsResetValue :
    ({ collecting with inputs := [.hardReset] } : State).inputs = .hardReset :: [] := rfl

theorem test_witness_ConfigurationCommandsWithNothingPending : booted.pend.valid = false := by decide

theorem test_witness_TagallocSkipsThePendingTag :
    ({ waiting .multi 0x7FFF with tagctr := 0x7FFF } : State).pend.valid = true
    ∧ ({ waiting .multi 0x7FFF with tagctr := 0x7FFF } : State).tagctr
      = ({ waiting .multi 0x7FFF with tagctr := 0x7FFF } : State).pend.tag
    ∧ ¬(booted.pend.valid = true ∧ booted.tagctr = booted.pend.tag) := by decide

theorem test_witness_ArmOpensAWait :
    booted.pend.valid = false ∧ (0x7FFF : U16).toNat ≤ 0x7FFF ∧ 0x7FFF < (0x8000 : U16).toNat := by decide

theorem test_witness_SendAppendsOneOuterFrame :
    longest.wf = true ∧ (sentFrame booted longest adrL (Addr.fill 0xFF) 1).length = 0x70
    ∧ ({ longest with c1 := 0x7E } : InnerMessage).wf = true
    ∧ 0x70 < (sentFrame booted { longest with c1 := 0x7E } adrL (Addr.fill 0xFF) 1).length
    ∧ innerBuild { m0 with extra := [1] } = .err ⟨.extraAlign, 1⟩ := by decide +kernel

theorem test_witness_SendFitsWithinFiftyBytes :
    longest.wf = true ∧ ∃ t, exec (.send longest none none none) booted = .next t ∧ t.resp = some (.ok .none) :=
  ⟨by decide, next_of_got (by decide +kernel)⟩

theorem test_witness_RequestArmsAndSends :
    booted.pend.valid = false ∧ ({ longest with tag := 0 } : InnerMessage).wf = true
    ∧ (sentFrame booted { longest with tag := 0 } adrL (Addr.fill 0xFF) 1).length ≤ 0x70
    ∧ 0x70 < (sentFrame booted { longest with c1 := 0x7E, tag := 0 } adrL (Addr.fill 0xFF) 1).length
    ∧ innerBuild { m0 with extra := [1], tag := 0 } = .err ⟨.extraAlign, 1⟩ := by decide +kernel

theorem test_witness_RequestIsTagallocArmSend :
    ∃ t, exec (.request q0 .multi) booted = .next t ∧ t.resp = some (.ok (.tag 0)) := next_of_got (by decide +kernel)

theorem test_witness_AbortEndsTheWait : collecting.pend.valid = true ∧ booted.pend.valid = false := by decide

theorem test_witness_RdregReadsTheTenRegisters : 9 < (0x0A : Byte).toNat ∧ 9 < (0xFF : Byte).toNat := by decide

theorem test_witness_UnassignedOpcodesAnswerBadOpcode :
    (0x4A : Byte) ∉ assignedOpcodes ∧ (0x00 : Byte) ∉ assignedOpcodes
    ∧ ({ booted with inputs := [.word (.command [0x4A, 0x00])] } : State).inputs
      = .word (.command (0x4A :: [0x00])) :: [] := by decide

theorem test_witness_RefusedCommandsChangeNothing :
    isCommand (.setaddr adrA) = true ∧ refusedInWait (.setaddr adrA) = true ∧ (waiting .multi 3).pend.valid = true
    ∧ ∃ t, exec (.setaddr adrA) (waiting .multi 3) = .next t ∧ t.resp = some (.err ⟨.busy, 3⟩) :=
  ⟨by decide, by decide, by decide, next_of_got (by decide)⟩

theorem test_witness_RaiseReportsAndEndsTheWait :
    (errorRow .pppCrc).1 ≠ .argument ∧ (errorRow .pppCrc).1 ≠ .busy := by decide

theorem test_witness_RxByteCutsTheStream :
    (hello.take 16 ++ [0x02]).length < 18
    ∧ ((header 0x7F 0x12 0x00 0x6C).length = 18 ∧ outerParse (header 0x7F 0x12 0x00 0x6C) = .err ⟨.outStart, 0x7F⟩)
    ∧ (outerParse (header 0x7E 0x13 0x00 0x6D) = .ok ⟨0x13, adrA, adrL, 1⟩
      ∧ (header 0x7E 0x13 0x00 0x6D).length ≠ ((header 0x7E 0x13 0x00 0x6D).getD 1 0).toNat)
    ∧ (outerParse hello = .ok ⟨0x12, adrL, Addr.fill 0xFF, 2⟩ ∧ hello.length = (hello.getD 1 0).toNat)
    ∧ (header 0x7E 0x70 0x00 0x0E ++ List.replicate 94 0).length
      = ((header 0x7E 0x70 0x00 0x0E ++ List.replicate 94 0).getD 1 0).toNat := by decide

theorem test_witness_OuterDeliverFiltersAndRoutes :
    ([0x7E, 0x12, 0x00, 0x6C] : List Byte).length = 4
    ∧ hello = [0x7E, 0x12, 0x00, 0x6C] ++ adrL.bytes ++ (Addr.fill 0xFF).bytes ++ [0x02, 0x00] ++ []
    ∧ ¬(adrA = booted.localAddr ∨ adrA = Addr.fill 0xFF ∨ adrA = Addr.fill 0x00)
    ∧ (word 0x02 0x00 ≠ booted.cfg.otypePpp ∧ word 0x02 0x00 ≠ booted.cfg.otypePpp2)
    ∧ word 0x01 0x00 = booted.cfg.otypePpp ∧ word 0x08 0x00 = booted.cfg.otypePpp2 := by decide

theorem test_witness_PppRxReassemblesWithinTheCapacities :
    (rbWf (tight 2).rb = true ∧ rbGet (tight 2).rb adrA = [] ∧ (0x7E : Byte) ∉ [(0x7D : Byte)])
    ∧ hasRoom adrA (tight 2) ∧ fitsBuffer (([0x7D] : List Byte).length + 1) (tight 2)
    ∧ (rbGet ({ tight 2 with rb := [(adrB, [0x7E])] } : State).rb adrA = []
      ∧ (tight 2).cfg.nSrc = some ({ tight 2 with rb := [(adrB, [0x7E])] } : State).rb.length)
    ∧ hasRoom adrA ({ tight 2 with rb := [(adrA, [0x7E, 0xFF])] } : State)
    ∧ 2 ≤ (rbGet ({ tight 2 with rb := [(adrA, [0x7E, 0xFF])] } : State).rb adrA).length
    ∧ (hasRoom adrA (tight 0) ∧ 0 ≤ (rbGet (tight 0).rb adrA).length) :=
  ⟨by decide, room_of rfl (by decide), fits_of rfl (by decide), by decide, .inl (by decide), by decide,
    room_of rfl (by decide), by decide⟩

/-- The one-byte clauses of the same statement: a buffer that a flag ends, a byte other than a flag into an empty
buffer, one into a buffer that holds something in a full table, each with the least room that suffices. -/
theorem test_witness_PppRxReassemblesWithinTheCapacities_one_byte :
    rbGet (holding [0x41]).rb adrA ≠ []
    ∧ ((0x41 : Byte) ≠ 0x7E ∧ rbGet (tight 1).rb adrA = [])
    ∧ hasRoom adrA (tight 1) ∧ fitsBuffer ((rbGet (tight 1).rb adrA).length + 1) (tight 1)
    ∧ hasRoom adrA ({ tight 2 with rb := [(adrA, [0x41])] } : State)
    ∧ fitsBuffer ((rbGet ({ tight 2 with rb := [(adrA, [0x41])] } : State).rb adrA).length + 1)
        { tight 2 with rb := [(adrA, [0x41])] } :=
  ⟨by decide, by decide, room_of rfl (by decide), fits_of rfl (by decide), .inl (by decide), fits_of rfl (by decide)⟩

theorem test_witness_OnlyTheConcatenationOfPayloadsMatters :
    booted.cfg.nSrc = none ∧ ∃ t, exec (.pppRx adrA [0x7E, 0xFF]) booted = .next t := ⟨by decide, _, rfl⟩

theorem test_witness_SourcesAreIsolated :
    ∃ t u, exec (.pppRx adrA [0xFF]) { booted with rb := [(adrA, [0x7E]), (adrB, [0x7E])] } = .next t
      ∧ adrB ≠ adrA ∧ rbWf [(adrA, [0x7E]), (adrB, [0x7E])] = true ∧ rbWf [(adrA, [0x7E]), (adrB, [0x41,
        0x42])] = true
      ∧ rbGet [(adrA, [0x7E]), (adrB, [0x41, 0x42])] adrA = rbGet [(adrA, [0x7E]), (adrB, [0x7E])] adrA
      ∧ [(adrA, [(0x7E : Byte)]), (adrB, [0x41, 0x42])].length = [(adrA, [(0x7E : Byte)]), (adrB, [0x7E])].length
      ∧ exec (.pppRx adrA [0xFF]) { booted with rb := [(adrA, [0x7E]), (adrB, [0x41, 0x42])] } = .next u :=
  ⟨_, _, rfl, by decide, by decide, by decide, by decide, by decide, rfl⟩

/-- The same with a table of another length, where `N_SRC` is infinite. -/
theorem test_witness_SourcesAreIsolated_unbounded :
    booted.cfg.nSrc = none ∧ rbWf [(adrA, [0x7E])] = true ∧ rbWf [(adrA, [0x7E]), (adrB, [0x41, 0x42])] = true
    ∧ rbGet [(adrA, [0x7E]), (adrB, [0x41, 0x42])] adrA = rbGet [(adrA, [0x7E])] adrA
    ∧ ∃ t u, exec (.pppRx adrA [0xFF]) { booted with rb := [(adrA, [0x7E])] } = .next t
      ∧ exec (.pppRx adrA [0xFF]) { booted with rb := [(adrA, [0x7E]), (adrB, [0x41, 0x42])] } = .next u :=
  ⟨by decide, by decide, by decide, by decide, _, _, rfl, rfl⟩

/-- An error of the step, the premise of the last clause of the same statement. -/
theorem test_witness_SourcesAreIsolated_error :
    ∃ t, exec (.pppRx adrA [0x7E]) { waiting .multi 1 with rb := [(adrA, [0x7E])] } = .next t
      ∧ t.evq = (waiting .multi 1).evq ++ [.error ⟨.pppShort, 0⟩] := next_of_got (by decide)

theorem test_witness_InnerRxTestsInOrder :
    (0x0021 : U16) ≠ booted.cfg.smaProtocolId ∧ (0x6560 : U16) = booted.cfg.smaProtocolId
    ∧ innerParse [] = .err ⟨.innerShort, 0⟩ ∧ innerParse rowOne = .ok { rp0 with tag := 7, first := true }
    ∧ (rp0.to2 ≠ State.reset.localAddr2 ∧ rp0.to2 ≠ State.reset.cfg.bcast2) ∧ rp0.to2 = booted.localAddr2
    ∧ q0.to2 = booted.cfg.bcast2 := by decide

theorem test_witness_DispatchMatchesThenDecides :
    ¬matching (reply true 0) booted ∧ matching (reply true 0) (waiting .single 1)
    ∧ matching { reply true 0 with error := 1 } (waiting .multi 1) ∧ (1 : U16) ≠ 0
    ∧ (reply true 0).error = 0 ∧ (waiting .single 1).pend.mode = .single ∧ (waiting .multi 1).pend.mode = .multi :=
  ⟨by unfold matching; decide, by unfold matching; decide, by unfold matching; decide, by decide, by decide,
    by decide,
    by decide⟩

theorem test_witness_AccStepCollectsInStrictOrder :
    ((waiting .multi 1).accExpected = none ∧ (reply false 2).first = false)
    ∧ ((tight 8).accExpected = none ∧ (reply true 3).first = true ∧ (tight 8).cfg.accMaxPkts = some 3
      ∧ 3 < (reply true 3).pktcount.toNat + 1)
    ∧ ((reply true 2).pktcount.toNat + 1 ≤ 3 ∧ (reply true 2).pktcount.toNat ≠ 0 ∧ (reply true 0).pktcount.toNat = 0
      ∧ (waiting .multi 1).cfg.accMaxPkts = none)
    ∧ (collecting.accExpected = some 3 ∧ collecting.accCollected.length < (3 : U17).toNat
      ∧ (reply false 0).pktcount.toNat ≠ (3 : U17).toNat - collecting.accCollected.length - 1
      ∧ (reply false 1).pktcount.toNat = (3 : U17).toNat - collecting.accCollected.length - 1)
    ∧ (2 < (3 : U17).toNat ∧ (reply false 0).pktcount.toNat = (3 : U17).toNat - [reply true 2,
      reply false 1].length - 1) := by
  decide

theorem test_witness_SymbolsJoinTheStuffedStream :
    ((tight 1).ob = [] ∧ (tight 2).ob = [] ∧ (holding [0x7E]).ob = [])
    ∧ (rbGet (tight 1).rb adrA = [] ∧ rbGet (holding [0x7E]).rb adrA ≠ [] ∧ (0x5E : Byte) ≠ 0x7E)
    ∧ hasRoom adrA (tight 1) ∧ fitsBuffer 1 (tight 1) ∧ hasRoom adrA (tight 2)
    ∧ fitsBuffer ((rbGet (tight 2).rb adrA).length + 2) (tight 2) :=
  ⟨by decide, by decide, room_of rfl (by decide), fits_of rfl (by decide), room_of rfl (by decide),
    fits_of rfl (by decide)⟩

theorem test_witness_OuterFrameIsDeliveredWhole :
    booted.ob = [] ∧ (List.replicate 94 (0 : Byte)).length ≤ 94
    ∧ ¬(adrA = booted.localAddr ∨ adrA = Addr.fill 0xFF ∨ adrA = Addr.fill 0x00)
    ∧ adrL = booted.localAddr ∧ ((2 : U16) ≠ booted.cfg.otypePpp ∧ (2 : U16) ≠ booted.cfg.otypePpp2)
    ∧ (1 : U16) = booted.cfg.otypePpp := by decide

theorem test_witness_PppFrameReachesInnerRx :
    wayIsClear adrA (pppBuild 0x6560 []) (tight 7) :=
  ⟨by decide, by decide, by decide, room_of rfl (by decide), fits_of rfl (by decide +kernel)⟩

theorem test_witness_InnerMessageReachesDispatch :
    rp0.wf = true ∧ rp0.to2 = booted.localAddr2 ∧ q0.to2 = booted.cfg.bcast2
    ∧ rp0.to2 ≠ State.reset.localAddr2 ∧ rp0.to2 ≠ State.reset.cfg.bcast2
    ∧ wayIsClear adrA (pppBuild 0x6560 (innerUnit rp0)) (tight 94) :=
  ⟨by decide, by decide, by decide, by decide, by decide, by decide, by decide, by decide, room_of rfl (by decide),
    fits_of rfl (by decide +kernel)⟩

/-- The three messages of R300's example. -/
def threePackets : List InnerMessage := [reply true 2, reply false 1, reply false 0]

/-- A MULTI wait for tag 1, with room for exactly three packets and the three messages to come. -/
def receiving : State :=
  { waiting .multi 1 with
    cfg := (tight 94).cfg
    inputs := threePackets.map (fun m => .word (.unit (.innerMessage adrA (innerUnit m)))) }

/-- Each of the three packets is short enough for the buffer. -/
theorem packets_fit :
    ∀ m ∈ threePackets, (pppBuild receiving.cfg.smaProtocolId (innerUnit m)).length - 1 ≤ 94 := by decide +kernel

theorem test_witness_MultiPacketReplyIsDeliveredInOrder :
    (receiving.inputs = threePackets.map (fun m => .word (.unit (.innerMessage adrA (innerUnit m)))) ++ []
      ∧ receiving.pend = ⟨true, .multi, 1⟩ ∧ receiving.accExpected = none ∧ receiving.accCollected = [])
    ∧ (∀ c, receiving.cfg.accMaxPkts = some c → threePackets.length ≤ c)
    ∧ (∀ m ∈ threePackets, wayIsClear adrA (pppBuild receiving.cfg.smaProtocolId (innerUnit m)) receiving)
    ∧ (∀ m ∈ threePackets, m.wf = true ∧ m.response = true ∧ m.tag.toNat = (1 : U15).toNat ∧ m.error = 0
      ∧ (m.to2 = receiving.localAddr2 ∨ m.to2 = receiving.cfg.bcast2))
    ∧ (∃ m, threePackets.head? = some m ∧ m.first = true)
    ∧ ∀ i m, threePackets[i]? = some m → m.pktcount.toNat + i + 1 = threePackets.length := by
  refine ⟨by decide +kernel, fun c h => ?_,
    fun m hm => ⟨by decide, by decide, by decide, room_of rfl (by decide), fits_of rfl (packets_fit m hm)⟩,
    by decide, ⟨_, rfl, rfl⟩, fun i m h => ?_⟩
  · cases h; decide
  · match i, h with
    | 0, h => cases h; decide
    | 1, h => cases h; decide
    | 2, h => cases h; decide

/-- A receiver with room for one source and 94 bytes, and the bytes of V40 to come. -/
def receiver : State := { tight 94 with inputs := sentQ0.map (fun b => .word (.rxByte b)) }

theorem test_witness_SentMessageIsDispatchedByTheReceiver :
    (({ q0 with tag := 0x11 } : InnerMessage).wf = true ∧ sentQ0 ≠ []
      ∧ receiver.cfg.smaProtocolId = booted.cfg.smaProtocolId ∧ receiver.cfg.otypePpp = booted.cfg.otypePpp
      ∧ receiver.ob = [] ∧ rbWf receiver.rb = true ∧ rbGet receiver.rb booted.localAddr = []
      ∧ q0.to2 = receiver.cfg.bcast2)
    ∧ hasRoom booted.localAddr receiver ∧ fitsBuffer 94 receiver
    ∧ receiver.inputs = sentQ0.map (fun b => .word (.rxByte b)) ++ []
    ∧ ∃ t, exec (.send { q0 with tag := 0x11 } none none none) booted = .next t ∧ t.txq = booted.txq ++ sentQ0 :=
  ⟨by decide, room_of rfl (by decide), fits_of rfl (by decide), by rw [List.append_nil]; rfl,
    next_of_got (by decide +kernel)⟩

theorem test_witness_EveryInstructionCompletes : isCommand .abort = true ∧ isCommand (.rxByte 0x7E) = false :=
  by decide

/-- An instruction that meets every premise of R20's column, but for the other instruction each clause names. -/
theorem test_witness_EachStateIsWrittenOnlyByItsWriters :
    onReceivePath .tagalloc = false ∧ takesRxBytes .tagalloc = false ∧ reachesPppRx .tagalloc = false
    ∧ isUnit .tagalloc = false ∧ isUnit (.fmtFlag adrA) = true
    ∧ ∃ t, exec .tagalloc (waiting .multi 1) = .next t := ⟨by decide, by decide, by decide, by decide, by decide, _,
      rfl⟩

theorem test_witness_QueuesGrowAndEsrSumsUpTheErrors :
    Instr.pppRx adrA [0x7E] ≠ .reset ∧ ∃ t, exec (.pppRx adrA [0x7E]) (holding [0x7E]) = .next t := ⟨nofun, _, rfl⟩

theorem test_witness_EveryEndOfAWaitIsReported :
    (waiting .multi 1).pend.valid = true
    ∧ ∃ t, exec (.dispatch { reply true 0 with error := 7 }) (waiting .multi 1) = .next t ∧ t.pend.valid = false :=
  ⟨by decide, next_of_got (by decide)⟩

theorem test_witness_OneByteCausesAtMostFortySevenEvents :
    (obInv booted = true ∧ rbInv booted = true ∧ booted.cfg.pppBufMax ≠ some 0)
    ∧ (obInv (tight 1) = true ∧ rbInv (tight 1) = true ∧ (tight 1).cfg.pppBufMax ≠ some 0)
    ∧ ∃ t, exec (.rxByte 0x7E) (tight 1) = .next t := ⟨by decide, by decide, _, rfl⟩

theorem test_witness_StepRunsTheDecodedInstruction :
    (present (.command [0x43]) booted).inputs = .word (.command [0x43]) :: []
    ∧ decode (.command [0x43]) = .ok .tagalloc ∧ Instr.tagalloc.wf = true
    ∧ ((present (.command []) booted).inputs = .word (.command []) :: [] ∧ decode (.command []) = .error .emptyWord)
    ∧ (present (.unit (.outerFrame [0x41])) booted).inputs = .word (.unit (.outerFrame [0x41])) :: []
    ∧ ({ booted with inputs := [.takeEvents 1] } : State).inputs = .takeEvents 1 :: []
    ∧ ({ booted with inputs := [.takeTx 1] } : State).inputs = .takeTx 1 :: [] ∧ booted.inputs = [] :=
  ⟨by decide, by decide, by decide, by decide, by decide, by decide, by decide, by decide⟩

/-- A state in which every invariant holds, with a wait, a buffer and a part of a header. -/
def busyState : State :=
  { collecting with rb := [(adrA, [0x7E, 0xFF])], ob := [0x7E], inputs := [.word (.rxByte 0x12)] }

theorem test_witness_EveryStepKeepsTheOuterBufferInvariant :
    obInv busyState = true ∧ ∃ t, step busyState = .next t := ⟨by decide, _, rfl⟩

theorem test_witness_EveryStepKeepsTheReassemblyInvariant :
    rbInv busyState = true ∧ esrInv busyState = true ∧ ∃ t, step busyState = .next t := ⟨by decide, by decide, _, rfl⟩

/-- The last clause speaks of states that already hold such an event. -/
theorem test_witness_EveryStepKeepsTheCorrelationInvariant :
    corrInv { busyState with evq := [.error ⟨.accCount, 0⟩] } = true
    ∧ ∃ t, step { busyState with evq := [.error ⟨.accCount, 0⟩] } = .next t ∧ t.evq = [.error ⟨.accCount, 0⟩] :=
  ⟨by decide, next_of_got (by decide)⟩

theorem test_witness_DecodeUndoesEncode :
    (Instr.send mDistinct none (some adrA) none).wf = true
    ∧ encode (.send mDistinct none (some adrA) none) = some (.command ([0x45,
      0x02] ++ adrA.bytes ++ packedDistinct)) := by
  decide

theorem test_witness_EncodeUndoesDecode :
    decode (.command ([0x46, 0x01] ++ packedDistinct)) = .ok (.request mDistinct .multi) := by decide

end Sys2Proof.Tests
end

