-- ==== Sys2Proof/Proofs/EscapeCodec.lean ====
section
/-! PROOF. The statements of spec/40_escape_codec.md: ESC_ENC replaces exactly the reserved bytes (R140, R141),
and the decoders undo the encoders (R145). The encoder is treated byte by byte through `escaped`, the spec's
form of R141; the decoder through one equation per kind of first byte. -/

namespace Sys2Proof.Machine
open Sys2Proof Sys2Proof.Spec

/-! ## The reserved bytes and what the encoder emits for one byte -/

theorem reserved_iff (b : Byte) : reserved b = true ↔ b = 0x7E ∨ b = 0x7D ∨ b = 0x11 ∨ b = 0x13 := by
  simp [reserved, or_assoc]

theorem escaped_of_reserved {b : Byte} (h : reserved b = true) : escaped b = [esc, b ^^^ escXor] :=
  if_pos ((reserved_iff b).mp h)

theorem escaped_of_not_reserved {b : Byte} (h : ¬ reserved b = true) : escaped b = [b] :=
  if_neg (mt (reserved_iff b).mpr h)

/-- The second byte of an escape pair is one of the four of R141. -/
theorem xor_escXor_mem_of_reserved {b : Byte} (h : reserved b = true) :
    b ^^^ escXor ∈ [(0x5E : Byte), 0x5D, 0x31, 0x33] := by
  rcases (reserved_iff b).mp h with rfl | rfl | rfl | rfl <;> decide

theorem not_reserved_xor_escXor {b : Byte} (h : reserved b = true) : ¬ reserved (b ^^^ escXor) = true := by
  rcases (reserved_iff b).mp h with rfl | rfl | rfl | rfl <;> decide

theorem xor_escXor_cancel (b : Byte) : b ^^^ escXor ^^^ escXor = b := by
  rw [BitVec.xor_assoc, BitVec.xor_self, BitVec.xor_zero]

theorem ne_esc_of_not_reserved {b : Byte} (h : ¬ reserved b = true) : b ≠ esc := by
  rintro rfl
  exact h (by decide)

/-- The only reserved byte the encoder emits is the escape itself. -/
theorem eq_esc_of_mem_escaped {b c : Byte} (hc : c ∈ escaped b) (hr : reserved c = true) : c = esc := by
  by_cases hb : reserved b = true
  · rw [escaped_of_reserved hb, List.mem_pair] at hc
    rcases hc with hesc | rfl
    · exact hesc
    · exact absurd hr (not_reserved_xor_escXor hb)
  · rw [escaped_of_not_reserved hb, List.mem_singleton] at hc
    exact absurd (hc ▸ hr) hb

/-! ## The encoder, R141 -/

theorem escEnc_eq_flatMap_escaped (data : List Byte) : escEnc data = data.flatMap escaped := by
  induction data with
  | nil => rfl
  | cons b rest ih =>
    by_cases hb : reserved b = true
    · simp [escEnc, hb, ih, escaped_of_reserved hb]
    · simp [escEnc, hb, ih, escaped_of_not_reserved hb]

theorem eq_esc_of_mem_flatMap_escaped {data : List Byte} {c : Byte} (hc : c ∈ data.flatMap escaped)
    (hr : reserved c = true) : c = esc := by
  obtain ⟨b, -, hcb⟩ := List.mem_flatMap.mp hc
  exact eq_esc_of_mem_escaped hcb hr

theorem not_mem_flatMap_escaped (data : List Byte) {c : Byte} (hr : reserved c = true) (hne : c ≠ esc) :
    c ∉ data.flatMap escaped :=
  fun hc => hne (eq_esc_of_mem_flatMap_escaped hc hr)

/-- An escape in the output stands at the head of a pair: by induction on the data, along the bytes each
data byte gives. -/
theorem getElem?_succ_of_esc {data : List Byte} {i : Nat} (h : (data.flatMap escaped)[i]? = some esc) :
    ∃ v ∈ [(0x5E : Byte), 0x5D, 0x31, 0x33], (data.flatMap escaped)[i + 1]? = some v := by
  induction data generalizing i with
  | nil => simp at h
  | cons b rest ih =>
    rw [List.flatMap_cons] at h ⊢
    by_cases hb : reserved b = true
    · rw [escaped_of_reserved hb] at h ⊢
      match i with
      | 0 => exact ⟨b ^^^ escXor, xor_escXor_mem_of_reserved hb, rfl⟩
      | 1 => exact absurd (Option.some.inj h) (ne_esc_of_not_reserved (not_reserved_xor_escXor hb))
      | _ + 2 => exact ih h
    · rw [escaped_of_not_reserved hb] at h ⊢
      match i with
      | 0 => exact absurd (Option.some.inj h) (ne_esc_of_not_reserved hb)
      | _ + 1 => exact ih h

/-! ## The decoders, R143 and R144 -/

theorem escDec_esc_cons (v : Byte) (rest : List Byte) :
    escDec (esc :: v :: rest) = mapOk (List.cons (v ^^^ escXor)) (escDec rest) := by
  simp [escDec]

theorem escDec_cons_of_ne_esc {b : Byte} (h : b ≠ esc) (rest : List Byte) :
    escDec (b :: rest) = mapOk (List.cons b) (escDec rest) := by
  cases rest with
  | nil => simp [escDec, h, mapOk]
  | cons v rest => simp [escDec, h]

theorem escDec_escEnc (x : List Byte) : escDec (escEnc x) = .ok x := by
  induction x with
  | nil => rfl
  | cons b rest ih =>
    by_cases hb : reserved b = true
    · calc escDec (escEnc (b :: rest))
          = escDec (esc :: (b ^^^ escXor) :: escEnc rest) := by rw [escEnc, if_pos hb]
        _ = mapOk (List.cons b) (.ok rest) := by rw [escDec_esc_cons, xor_escXor_cancel, ih]
        _ = .ok (b :: rest) := rfl
    · calc escDec (escEnc (b :: rest))
          = escDec (b :: escEnc rest) := by rw [escEnc, if_neg hb]
        _ = mapOk (List.cons b) (.ok rest) := by rw [escDec_cons_of_ne_esc (ne_esc_of_not_reserved hb), ih]
        _ = .ok (b :: rest) := rfl

/-- Between one pair of flags and with no flag inside, the three checks of R144 pass. -/
theorem destuff_of_flag_not_mem {body : List Byte} (h : flag ∉ body) :
    destuff (flag :: (body ++ [flag])) = escDec body := by
  simp [destuff, h]

theorem destuff_stuff (x : List Byte) : destuff (stuff x) = .ok x := by
  have hflag : flag ∉ escEnc x :=
    escEnc_eq_flatMap_escaped x ▸ not_mem_flatMap_escaped x (by decide) (by decide)
  rw [stuff, destuff_of_flag_not_mem hflag, escDec_escEnc]

/-! ## The four commands: each only answers -/

theorem exec_escEnc (data : List Byte) (s : State) :
    exec (.escEnc data) s = answered s (.ok (.bytes (escEnc data))) := rfl

theorem exec_escDec (body : List Byte) (s : State) :
    exec (.escDec body) s = answered s (mapOk .bytes (escDec body)) := rfl

theorem exec_stuff (frame : List Byte) (s : State) :
    exec (.stuff frame) s = answered s (.ok (.bytes (stuff frame))) := rfl

theorem exec_destuff (raw : List Byte) (s : State) :
    exec (.destuff raw) s = answered s (mapOk .bytes (destuff raw)) := rfl

/-! ## The statements -/

/-- Settles O1: the command is the byte-by-byte form of R141, and the shape of the output follows from what
one byte gives. -/
theorem escEncReplacesReservedBytes : Obligations.EscEncReplacesReservedBytes := by
  intro data s
  refine ⟨reserved_iff, ?_, ?_, ?_, ?_, fun i h => getElem?_succ_of_esc h⟩
  · rw [exec_escEnc, escEnc_eq_flatMap_escaped]
  all_goals exact not_mem_flatMap_escaped data (by decide) (by decide)

/-- Settles O5, from the round trips of the pure functions. -/
theorem destuffUndoesStuff : Obligations.DestuffUndoesStuff := by
  intro x s
  refine ⟨⟨stuff x, exec_stuff x s, ?_⟩, ⟨escEnc x, exec_escEnc x s, ?_⟩⟩
  · rw [exec_destuff, destuff_stuff, mapOk]
  · rw [exec_escDec, escDec_escEnc, mapOk]

end Sys2Proof.Machine
end

/-! PROOF. Bytes and words: the byte order of the model (`le16`, `read16`, …) against that of the spec's
statements (`octet`, `word`), and buffers read field by field (spec/00_scope.md R11). -/

namespace Sys2Proof.Machine
open Sys2Proof Sys2Proof.Spec

/-! ## Integers and their bytes (R11) -/

theorem le16_eq_octets (v : U16) : le16 v = [octet v 0, octet v 1] := by simp [le16_eq, octet]

theorem le32_eq_octets (v : U32) : le32 v = [octet v 0, octet v 1, octet v 2, octet v 3] := by
  simp [le32_eq, octet]

theorem ofNat_leNat_eq_word (lo hi : Byte) : BitVec.ofNat 16 (leNat [lo, hi]) = word lo hi :=
  ofNat_leNat_two lo hi

theorem ofNat_leNat_eq_word32 (b0 b1 b2 b3 : Byte) :
    BitVec.ofNat 32 (leNat [b0, b1, b2, b3]) = word32 b0 b1 b2 b3 := ofNat_leNat_four b0 b1 b2 b3

@[simp] theorem word_octets (v : U16) : word (octet v 0) (octet v 1) = v := by
  rw [← ofNat_leNat_eq_word, ← le16_eq_octets, ofNat_leNat_le16]

@[simp] theorem word32_octets (v : U32) : word32 (octet v 0) (octet v 1) (octet v 2) (octet v 3) = v := by
  rw [← ofNat_leNat_eq_word32, ← le32_eq_octets, ofNat_leNat_le32]

@[simp] theorem le16_word (lo hi : Byte) : le16 (word lo hi) = [lo, hi] := by
  have hlt : leNat [lo, hi] < 2 ^ 16 := (leNat_lt [lo, hi]).trans_eq (by simp)
  rw [← ofNat_leNat_eq_word, le16, BitVec.toNat_ofNat, Nat.mod_eq_of_lt hlt]
  exact leBytes_leNat [lo, hi]

@[simp] theorem le32_word32 (b0 b1 b2 b3 : Byte) : le32 (word32 b0 b1 b2 b3) = [b0, b1, b2, b3] := by
  have hlt : leNat [b0, b1, b2, b3] < 2 ^ 32 := (leNat_lt [b0, b1, b2, b3]).trans_eq (by simp)
  rw [← ofNat_leNat_eq_word32, le32, BitVec.toNat_ofNat, Nat.mod_eq_of_lt hlt]
  exact leBytes_leNat [b0, b1, b2, b3]

@[simp] theorem octet_word_zero (lo hi : Byte) : octet (word lo hi) 0 = lo := by
  have h := le16_eq_octets (word lo hi)
  rw [le16_word, List.cons.injEq] at h
  exact h.1.symm

@[simp] theorem octet_word_one (lo hi : Byte) : octet (word lo hi) 1 = hi := by
  have h := le16_eq_octets (word lo hi)
  rw [le16_word, List.cons.injEq, List.cons.injEq] at h
  exact h.2.1.symm

/-! ## Reading a field of a buffer (R9, R11) -/

theorem byteAt_eq_getD_drop (buf : List Byte) (off i : Nat) : byteAt buf (off + i) = (buf.drop off).getD i 0 := by
  simp [byteAt]

theorem byteAt_append_left {p : List Byte} {i : Nat} (h : i < p.length) (q : List Byte) :
    byteAt (p ++ q) i = byteAt p i := by
  simp [byteAt, List.getElem?_append_left h]

theorem byteAt_take {buf : List Byte} {i n : Nat} (h : i < n) : byteAt (buf.take n) i = byteAt buf i := by
  simp [byteAt, List.getElem?_take_of_lt h]

theorem read16_eq_word (buf : List Byte) (off : Nat) :
    read16 buf off = word (byteAt buf off) (byteAt buf (off + 1)) := by
  have h0 : byteAt buf off = (buf.drop off).getD 0 0 := byteAt_eq_getD_drop buf off 0
  rw [h0, byteAt_eq_getD_drop, ← ofNat_leNat_eq_word, read16, memRead, bytesAt]
  rcases buf.drop off with _ | ⟨a, _ | ⟨b, r⟩⟩ <;> simp [leNat]

theorem read32_eq_word32 (buf : List Byte) (off : Nat) :
    read32 buf off
      = word32 (byteAt buf off) (byteAt buf (off + 1)) (byteAt buf (off + 2)) (byteAt buf (off + 3)) := by
  have h0 : byteAt buf off = (buf.drop off).getD 0 0 := byteAt_eq_getD_drop buf off 0
  simp only [h0, byteAt_eq_getD_drop, ← ofNat_leNat_eq_word32, read32, memRead, bytesAt]
  rcases buf.drop off with _ | ⟨a, _ | ⟨b, _ | ⟨c, _ | ⟨d, r⟩⟩⟩⟩ <;> simp [leNat]

/-! ## Writing back what was read: each field, then the rest of the buffer -/

theorem byteAt_cons_drop {buf : List Byte} {off : Nat} (h : off < buf.length) :
    byteAt buf off :: buf.drop (off + 1) = buf.drop off := by
  rw [List.drop_eq_getElem_cons h]
  simp [byteAt, h]

theorem addrAt_bytes_append_drop {buf : List Byte} {off : Nat} (h : off + 6 ≤ buf.length) :
    (addrAt buf off).bytes ++ buf.drop (off + 6) = buf.drop off := by
  rw [← byteAt_cons_drop (off := off) (by omega), ← byteAt_cons_drop (off := off + 1) (by omega),
    ← byteAt_cons_drop (off := off + 2) (by omega), ← byteAt_cons_drop (off := off + 3) (by omega),
    ← byteAt_cons_drop (off := off + 4) (by omega), ← byteAt_cons_drop (off := off + 5) (by omega)]
  rfl

theorem le16_read16_append_drop {buf : List Byte} {off : Nat} (h : off + 2 ≤ buf.length) :
    le16 (read16 buf off) ++ buf.drop (off + 2) = buf.drop off := by
  rw [read16_eq_word, le16_word, ← byteAt_cons_drop (off := off) (by omega),
    ← byteAt_cons_drop (off := off + 1) (by omega)]
  rfl

theorem le32_read32_append_drop {buf : List Byte} {off : Nat} (h : off + 4 ≤ buf.length) :
    le32 (read32 buf off) ++ buf.drop (off + 4) = buf.drop off := by
  rw [read32_eq_word32, le32_word32, ← byteAt_cons_drop (off := off) (by omega),
    ← byteAt_cons_drop (off := off + 1) (by omega), ← byteAt_cons_drop (off := off + 2) (by omega),
    ← byteAt_cons_drop (off := off + 3) (by omega)]
  rfl

/-! ## A buffer that ends in two bytes -/

theorem take_length_sub_two (data : List Byte) (lo hi : Byte) :
    (data ++ [lo, hi]).take ((data ++ [lo, hi]).length - 2) = data := by
  simp

theorem read16_length_sub_two (data : List Byte) (lo hi : Byte) :
    read16 (data ++ [lo, hi]) ((data ++ [lo, hi]).length - 2) = word lo hi := by
  simp [read16, memRead, bytesAt, ofNat_leNat_eq_word]

/-! ## Error values (R362) -/

theorem info16_of_le {n : Nat} (h : n ≤ 0xFFFF) : info16 n = BitVec.ofNat 16 n := if_neg (by omega)

theorem info16_eq_min (n : Nat) : info16 n = BitVec.ofNat 16 (min n 0xFFFF) := by
  by_cases h : n ≤ 0xFFFF
  · rw [info16_of_le h, Nat.min_eq_left h]
  · rw [Nat.min_eq_right (by omega)]
    exact if_pos (by omega)

theorem errOf_of_le {c : Cause} {n : Nat} (h : n ≤ 0xFFFF) : errOf c n = ⟨c, BitVec.ofNat 16 n⟩ := by
  rw [errOf, info16_of_le h]

theorem errOf_toNat (c : Cause) (v : U16) : errOf c v.toNat = ⟨c, v⟩ := by
  rw [errOf_of_le (by have := v.isLt; omega), BitVec.ofNat_toNat, BitVec.setWidth_eq]

theorem errOf_byte (c : Cause) (b : Byte) : errOf c b.toNat = ⟨c, BitVec.ofNat 16 b.toNat⟩ :=
  errOf_of_le (by have := b.isLt; omega)

@[simp] theorem errOf_cause (c : Cause) (n : Nat) : (errOf c n).cause = c := rfl

/-! ## Results -/

@[simp] theorem mapOk_ok {α β : Type} (f : α → β) (v : α) : mapOk f (.ok v) = .ok (f v) := rfl
@[simp] theorem mapOk_err {α β : Type} (f : α → β) (e : Err) : mapOk f (.err e) = .err e := rfl
@[simp] theorem andThen_ok {α β : Type} (f : α → Result β) (v : α) : andThen (.ok v) f = f v := rfl
@[simp] theorem andThen_err {α β : Type} (f : α → Result β) (e : Err) : andThen (.err e) f = .err e := rfl

theorem mapOk_eq_err_iff {α β : Type} {f : α → β} {r : Result α} {e : Err} :
    mapOk f r = .err e ↔ r = .err e := by
  cases r <;> simp [mapOk]

/-! ## Commands that only answer -/

theorem answered_err_of_le (s : State) (c : Cause) {n : Nat} (h : n ≤ 0xFFFF) :
    answered s (.err (errOf c n)) = failedWith s c n := by
  rw [errOf_of_le h, failedWith]

/-- The same response on the port comes from the same answer. -/
theorem answered_inj {s : State} {r r' : Response} : answered s r = answered s r' ↔ r = r' := by
  constructor
  · intro h
    have hs := congrArg State.resp (Host.Outcome.next.inj h)
    exact Option.some.inj hs
  · rintro rfl; rfl

end Sys2Proof.Machine

/-! PROOF. The statements of spec/41_crc16.md. The conditional shift of R161 is linear, which gives the table
form (R162), and injective, which gives R165 (b); the residue (R165 (d)) is read off the table form. -/

namespace Sys2Proof.Machine
open Sys2Proof Sys2Proof.Spec

/-! ## One conditional shift (R161) -/

/-- What a conditional shift adds to the shifted register. -/
def crcPoly (low : Bool) : U16 := if low then 0x8408#16 else 0

theorem crcPoly_xor (p q : Bool) : crcPoly (p ^^ q) = crcPoly p ^^^ crcPoly q := by
  cases p <;> cases q <;> rfl

theorem crcShift_eq (c : U16) : crcShift c = (c >>> 1) ^^^ crcPoly (c.getLsbD 0) := by
  unfold crcShift crcPoly
  split
  · rfl
  · exact (BitVec.xor_zero).symm

theorem crcShift_of_even {c : U16} (h : c.getLsbD 0 = false) : crcShift c = c >>> 1 := by
  rw [crcShift_eq, h]
  exact BitVec.xor_zero

/-- A conditional shift of a sum is the sum of the conditional shifts. -/
theorem crcShift_xor (x y : U16) : crcShift (x ^^^ y) = crcShift x ^^^ crcShift y := by
  simp only [crcShift_eq, BitVec.getLsbD_xor, crcPoly_xor, BitVec.ushiftRight_xor_distrib]
  ac_rfl

/-- Bit 15 of the result is bit 0 of the operand, since the polynomial has bit 15 and a shift has not. -/
theorem getLsbD_fifteen_crcShift (c : U16) : (crcShift c).getLsbD 15 = c.getLsbD 0 := by
  have hpoly : ∀ low, (crcPoly low).getLsbD 15 = low := by decide
  have hshift : (c >>> 1).getLsbD 15 = false := by simp
  rw [crcShift_eq, BitVec.getLsbD_xor, hpoly, hshift, Bool.false_xor]

theorem crcShift_injective : Function.Injective crcShift := by
  intro x y h
  have hbit : x.getLsbD 0 = y.getLsbD 0 := by
    rw [← getLsbD_fifteen_crcShift, h, getLsbD_fifteen_crcShift]
  have hshift : x >>> 1 = y >>> 1 := by
    rw [crcShift_eq, crcShift_eq, hbit] at h
    exact (BitVec.xor_left_inj _).mp h
  apply BitVec.eq_of_getLsbD_eq
  intro i _
  match i with
  | 0 => exact hbit
  | i + 1 =>
    have hi := congrArg (fun v => v.getLsbD i) hshift
    simpa only [BitVec.getLsbD_ushiftRight, Nat.add_comm 1 i] using hi

/-! ## Eight conditional shifts -/

theorem repeat_crcShift_xor (n : Nat) (x y : U16) :
    Nat.repeat crcShift n (x ^^^ y) = Nat.repeat crcShift n x ^^^ Nat.repeat crcShift n y := by
  induction n with
  | zero => rfl
  | succ n ih => simp only [Nat.repeat, ih, crcShift_xor]

theorem repeat_crcShift_injective (n : Nat) : Function.Injective (Nat.repeat crcShift n) := by
  induction n with
  | zero => exact fun _ _ h => h
  | succ n ih => exact fun _ _ h => ih (crcShift_injective h)

/-- As long as the bits shifted out are 0, the conditional shifts only shift. -/
theorem repeat_crcShift_of_low_zero {c : U16} {n : Nat} (h : ∀ i < n, c.getLsbD i = false) :
    Nat.repeat crcShift n c = c >>> n := by
  induction n with
  | zero => simp [Nat.repeat]
  | succ n ih =>
    have hbit : (c >>> n).getLsbD 0 = false := by
      simpa [BitVec.getLsbD_ushiftRight] using h n (Nat.lt_succ_self n)
    rw [Nat.repeat, ih fun i hi => h i (Nat.lt_succ_of_lt hi), crcShift_of_even hbit, BitVec.shiftRight_add]

/-- The spec's table entry is eight conditional shifts (R162). -/
theorem crcTable_eq_repeat (i : U16) : crcTable i = Nat.repeat crcShift 8 i := by
  have hbit : ∀ c : U16, c &&& 1 = 1 ↔ c.getLsbD 0 = true := by
    intro c
    have h := BitVec.and_twoPow c 0
    rw [show BitVec.twoPow 16 0 = 1#16 from rfl] at h
    rw [show (1 : U16) = 1#16 from rfl, h]
    cases c.getLsbD 0 <;> simp
  have hshift : ∀ c : U16, (if c &&& 1 = 1 then (c >>> 1) ^^^ 0x8408 else c >>> 1) = crcShift c := by
    intro c
    simp only [hbit, crcShift]
    rfl
  simp only [crcTable, hshift]
  rfl

/-! ## One byte (R161, R162) -/

theorem low_xor_high (c : U16) : (c &&& 0xFF) ^^^ (c &&& 0xFF00) = c := by
  apply BitVec.eq_of_getLsbD_eq
  intro i hi
  interval_cases i <;> simp

/-- A byte of the bit-serial procedure is a step of the table form: of the sum, the low byte goes through the
table and the high byte is only shifted. -/
theorem crcByte_eq_table (c : U16) (b : Byte) :
    crcByte c b = (c >>> 8) ^^^ crcTable ((c ^^^ b.setWidth 16) &&& 0xFF) := by
  have hlow : ∀ i < 8, ((c ^^^ b.setWidth 16) &&& 0xFF00).getLsbD i = false := by
    intro i hi
    interval_cases i <;> simp
  have hhigh : ((c ^^^ b.setWidth 16) &&& 0xFF00) >>> 8 = c >>> 8 := by
    apply BitVec.eq_of_getLsbD_eq
    intro i hi
    interval_cases i <;> simp
  calc crcByte c b
      = Nat.repeat crcShift 8 ((c ^^^ b.setWidth 16) &&& 0xFF ^^^ (c ^^^ b.setWidth 16) &&& 0xFF00) := by
        rw [low_xor_high, crcByte]
    _ = crcTable ((c ^^^ b.setWidth 16) &&& 0xFF) ^^^ (c >>> 8) := by
        rw [repeat_crcShift_xor, repeat_crcShift_of_low_zero hlow, hhigh, crcTable_eq_repeat]
    _ = (c >>> 8) ^^^ crcTable ((c ^^^ b.setWidth 16) &&& 0xFF) := BitVec.xor_comm _ _

theorem crc16_eq_tableCrc (data : List Byte) : crc16 data = tableCrc data := by
  have hstep : crcByte
      = fun (c : U16) (b : Byte) => (c >>> 8) ^^^ crcTable ((c ^^^ b.setWidth 16) &&& 0xFF) := by
    funext c b
    exact crcByte_eq_table c b
  rw [crc16, hstep]
  rfl

theorem crcByte_left_injective (b : Byte) : Function.Injective (fun c => crcByte c b) := by
  intro x y h
  simpa using repeat_crcShift_injective 8 h

theorem crcByte_right_injective (c : U16) : Function.Injective (crcByte c) := by
  intro a b h
  have hw : a.setWidth 16 = b.setWidth 16 := by simpa using repeat_crcShift_injective 8 h
  simpa using congrArg (BitVec.setWidth 8) hw

theorem foldl_crcByte_injective (data : List Byte) : Function.Injective (fun c => data.foldl crcByte c) := by
  induction data with
  | nil => exact fun _ _ h => h
  | cons b rest ih => exact fun _ _ h => crcByte_left_injective b (ih h)

/-- Strings that differ in one byte have different CRCs (R165 (b)). -/
theorem eq_of_crc16_eq {before after : List Byte} {a b : Byte}
    (h : crc16 (before ++ [a] ++ after) = crc16 (before ++ [b] ++ after)) : a = b := by
  simp only [crc16, List.foldl_append, List.foldl_cons, List.foldl_nil, BitVec.xor_left_inj] at h
  exact crcByte_right_injective _ (foldl_crcByte_injective after h)

/-! ## The CRC at the end of its own data (R163, R164, R165) -/

theorem crcAppend_eq (data : List Byte) :
    crcAppend data = data ++ [octet (crc16 data) 0, octet (crc16 data) 1] := by
  rw [crcAppend, le16_eq_octets]

/-- The low byte of the complement meets the register: its low byte becomes FF, its high byte stays. -/
theorem xor_low_octet_compl (c : U16) : (c ^^^ (octet (c ^^^ 0xFFFF) 0).setWidth 16) &&& 0xFF = 0xFF := by
  apply BitVec.eq_of_getLsbD_eq
  intro i hi
  interval_cases i <;> simp [octet]

/-- After the first byte the high byte of the complement cancels what the register had above bit 7. -/
theorem xor_high_octet_compl (c t : U16) :
    (((c >>> 8) ^^^ t) ^^^ (octet (c ^^^ 0xFFFF) 1).setWidth 16) &&& 0xFF = (t ^^^ 0xFF) &&& 0xFF := by
  apply BitVec.eq_of_getLsbD_eq
  intro i hi
  interval_cases i <;> simp [octet] <;> grind

theorem shiftRight_eight_eight (c t : U16) : ((c >>> 8) ^^^ t) >>> 8 = t >>> 8 := by
  apply BitVec.eq_of_getLsbD_eq
  intro i hi
  have hzero : c.getLsbD (8 + (8 + i)) = false := BitVec.getLsbD_of_ge c _ (by omega)
  simp only [BitVec.getLsbD_ushiftRight, BitVec.getLsbD_xor, hzero, Bool.false_xor]

/-- Two bytes that are the register's own complement leave a register that does not depend on it (R165 (d)). -/
theorem crcByte_own_complement (c : U16) :
    crcByte (crcByte c (octet (c ^^^ 0xFFFF) 0)) (octet (c ^^^ 0xFFFF) 1)
      = (crcTable 0xFF >>> 8) ^^^ crcTable ((crcTable 0xFF ^^^ 0xFF) &&& 0xFF) := by
  rw [crcByte_eq_table c, xor_low_octet_compl, crcByte_eq_table, xor_high_octet_compl, shiftRight_eight_eight]

theorem crc16_crcAppend (data : List Byte) : crc16 (crcAppend data) = 0x0F47 := by
  rw [crcAppend_eq, crc16, List.foldl_append]
  simp only [List.foldl_cons, List.foldl_nil, crc16]
  rw [show (0xFFFF#16 : U16) = 0xFFFF from rfl, crcByte_own_complement]
  decide

/-! ## CRC_CHECK (R164) -/

theorem crcCheck_of_short {frame : List Byte} (h : frame.length < 2) :
    crcCheck frame = .err (errOf .pppShort 0) := if_pos h

theorem crcCheck_append_two (data : List Byte) (lo hi : Byte) :
    crcCheck (data ++ [lo, hi]) = if crc16 data = word lo hi then .ok () else .err (errOf .pppCrc 0) := by
  have hlen : ¬ (data ++ [lo, hi]).length < 2 := by simp
  rw [crcCheck, if_neg hlen, take_length_sub_two, read16_length_sub_two]
  by_cases h : crc16 data = word lo hi <;> simp [h]

theorem crcCheck_crcAppend (data : List Byte) : crcCheck (crcAppend data) = .ok () := by
  rw [crcAppend_eq, crcCheck_append_two, word_octets, if_pos rfl]

/-! ## The three commands -/

theorem exec_crc16 (data : List Byte) (s : State) :
    exec (.crc16 data) s = answered s (.ok (.u16 (crc16 data))) := rfl

theorem exec_crcAppend (data : List Byte) (s : State) :
    exec (.crcAppend data) s = answered s (.ok (.bytes (crcAppend data))) := rfl

theorem exec_crcCheck (frame : List Byte) (s : State) :
    exec (.crcCheck frame) s = answered s (mapOk (fun _ => .none) (crcCheck frame)) := rfl

/-! ## The statements -/

/-- Settles O6: byte by byte, by the linearity of the conditional shift. -/
theorem crc16IsTheTableForm : Obligations.Crc16IsTheTableForm := by
  intro data s
  rw [exec_crc16, crc16_eq_tableCrc]

/-- Settles O7: every part of the procedure is injective. -/
theorem oneChangedByteChangesCrc : Obligations.OneChangedByteChangesCrc := by
  intro before after a b s t ha hb
  have hsame : answered s (.ok (.u16 (crc16 (before ++ [a] ++ after))))
      = answered s (.ok (.u16 (crc16 (before ++ [b] ++ after)))) := ha.trans hb.symm
  rw [answered_inj] at hsame
  exact eq_of_crc16_eq (by simpa using hsame)

/-- Settles O8. -/
theorem crcAppendPutsLowByteFirst : Obligations.CrcAppendPutsLowByteFirst := by
  intro data s
  refine ⟨rfl, crc16 data, exec_crc16 data s, ?_, ?_⟩
  · rw [exec_crcAppend, crcAppend_eq]
  · have hempty : crcAppend [] = [0x00, 0x00] := by decide
    rw [exec_crcAppend, hempty]

/-- Settles O9, from the check of a frame taken apart into data and last two bytes. -/
theorem crcCheckComparesTheLastTwoBytes : Obligations.CrcCheckComparesTheLastTwoBytes := by
  intro frame data lo hi s
  refine ⟨fun hshort => ?_, fun hne => ?_, fun heq => ?_, ?_, ?_⟩
  · rw [exec_crcCheck, crcCheck_of_short hshort]
    rfl
  · rw [exec_crcCheck, crcCheck_append_two, crc16_eq_tableCrc, if_neg hne]
    rfl
  · rw [exec_crcCheck, crcCheck_append_two, crc16_eq_tableCrc, if_pos heq]
    rfl
  · rw [exec_crcCheck, crcCheck_crcAppend]
    rfl
  · rw [exec_crc16, crc16_crcAppend]

end Sys2Proof.Machine

/-! PROOF. The statements of spec/42_outer_frame.md on the pure functions: the tests of OUTER_PARSE, the layout
of OUTER_BUILD, the round trip, and the two address filters (R185, R245). -/

namespace Sys2Proof.Machine
open Sys2Proof Sys2Proof.Spec

/-! ## The layout of R100 -/

theorem outerUnit_eq_frameBytes (src dst : Addr) (typ : U16) (payload : List Byte) :
    outerUnit src dst typ payload = frameBytes src dst typ payload := by
  rw [outerUnit, outerBytes, le16_eq_octets]
  rfl

@[simp] theorem outerUnit_length (src dst : Addr) (typ : U16) (payload : List Byte) :
    (outerUnit src dst typ payload).length = 18 + payload.length := by
  simp [outerUnit, outerBytes]
  omega

section
variable (src dst : Addr) (typ : U16) (payload : List Byte)

@[simp] theorem outerUnit_byteAt_zero : byteAt (outerUnit src dst typ payload) 0 = flag := rfl
@[simp] theorem outerUnit_byteAt_one :
    byteAt (outerUnit src dst typ payload) 1 = BitVec.ofNat 8 (18 + payload.length) := rfl
@[simp] theorem outerUnit_byteAt_two : byteAt (outerUnit src dst typ payload) 2 = 0 := rfl
@[simp] theorem outerUnit_byteAt_three :
    byteAt (outerUnit src dst typ payload) 3 = flag ^^^ BitVec.ofNat 8 (18 + payload.length) := rfl
@[simp] theorem outerUnit_src : addrAt (outerUnit src dst typ payload) 4 = src := rfl
@[simp] theorem outerUnit_dst : addrAt (outerUnit src dst typ payload) 10 = dst := rfl
@[simp] theorem outerUnit_payload : (outerUnit src dst typ payload).drop outerHlen = payload := rfl

@[simp] theorem outerUnit_typ : read16 (outerUnit src dst typ payload) 16 = typ := by
  rw [outerUnit_eq_frameBytes, read16_eq_word]
  exact word_octets typ

end

/-! ## OUTER_PARSE, the five tests of R181 -/

theorem outerParse_of_short {buf : List Byte} (h : buf.length < outerHlen) :
    outerParse buf = .err (errOf .outShort buf.length) := if_pos h

/-- The last four tests, on a buffer whose first four bytes are given. -/
theorem outerParse_cons {b0 len rsvd ck : Byte} {rest : List Byte} (h : 14 ≤ rest.length) :
    outerParse (b0 :: len :: rsvd :: ck :: rest) =
      if b0 ≠ 0x7E then .err (errOf .outStart b0.toNat)
      else if 0x70 < len.toNat ∨ rsvd ≠ 0 then .err (errOf .outLen len.toNat)
      else if ck ≠ 0x7E ^^^ len then .err (errOf .outCksum ck.toNat)
      else if len.toNat < 18 then .err (errOf .outLenSmall len.toNat)
      else .ok ⟨len, addrAt rest 0, addrAt rest 6, read16 rest 12⟩ := by
  have hlen : ¬ (b0 :: len :: rsvd :: ck :: rest).length < outerHlen := by
    simp [outerHlen]
    omega
  have hsum : (0x7E : Byte) ^^^ len ^^^ 0 = 0x7E ^^^ len := BitVec.xor_zero
  rw [outerParse, if_neg hlen]
  by_cases hb : b0 = 0x7E
  · by_cases hr : rsvd = 0
    · subst hb hr
      rw [← hsum]
      rfl
    · rw [if_neg (not_not.mpr hb), if_pos (Or.inr hr)]
      exact (if_neg (not_not.mpr hb)).trans (if_pos (Or.inr hr))
  · rw [if_pos hb]
    exact if_pos hb

/-- The buffers that OUTER_PARSE accepts, and what it reads. -/
theorem outerParse_eq_ok_iff {buf : List Byte} {h : OuterHeader} :
    outerParse buf = .ok h ↔
      18 ≤ buf.length ∧ byteAt buf 0 = flag ∧ 18 ≤ (byteAt buf 1).toNat ∧ (byteAt buf 1).toNat ≤ 0x70
      ∧ byteAt buf 2 = 0 ∧ byteAt buf 3 = flag ^^^ byteAt buf 1
      ∧ h = ⟨byteAt buf 1, addrAt buf 4, addrAt buf 10, read16 buf 16⟩ := by
  unfold outerParse outerHlen outerMax
  constructor
  · intro hok
    split_ifs at hok with h1 h2 h3 h4 h5
    obtain ⟨hmax, hrsvd⟩ : (byteAt buf 1).toNat ≤ 0x70 ∧ byteAt buf 2 = 0 := by
      rw [not_or, not_lt, not_not] at h3
      exact h3
    have hflag : byteAt buf 0 = flag := not_not.mp h2
    have hck : byteAt buf 3 = flag ^^^ byteAt buf 1 := by
      rw [not_not.mp h4, hflag, hrsvd]
      exact BitVec.xor_zero
    exact ⟨by omega, hflag, by omega, hmax, hrsvd, hck, (Result.ok.inj hok).symm⟩
  · rintro ⟨hlen, hflag, hmin, hmax, hrsvd, hck, rfl⟩
    have hsum : flag ^^^ byteAt buf 1 = flag ^^^ byteAt buf 1 ^^^ 0 := BitVec.xor_zero.symm
    rw [if_neg (by omega), if_neg (not_not.mpr hflag), if_neg (by rw [not_or]; exact ⟨by omega, not_not.mpr hrsvd⟩),
      if_neg (by rw [hck, hflag, hrsvd, not_not]; exact hsum), if_neg (by omega)]

/-! ## OUTER_BUILD and the round trip (R183, R184) -/

theorem outerBuild_of_le {payload : List Byte} (h : payload.length ≤ maxPayload) (src dst : Addr) (typ : U16) :
    outerBuild src dst typ payload = .ok (outerUnit src dst typ payload) :=
  if_neg (by simp [outerMax, outerHlen, maxPayload] at *; omega)

theorem outerBuild_of_lt {payload : List Byte} (h : maxPayload < payload.length) (src dst : Addr) (typ : U16) :
    outerBuild src dst typ payload = .err (errOf .outTooLong (18 + payload.length)) :=
  if_pos (by simp [outerMax, outerHlen, maxPayload] at *; omega)

theorem outerBuild_eq_ok_iff {src dst : Addr} {typ : U16} {payload x : List Byte} :
    outerBuild src dst typ payload = .ok x ↔ payload.length ≤ maxPayload ∧ x = outerUnit src dst typ payload := by
  by_cases h : payload.length ≤ maxPayload
  · simp [outerBuild_of_le h, h, eq_comm]
  · simp [outerBuild_of_lt (not_le.mp h), h]

theorem toNat_outerUnit_length {payload : List Byte} (h : payload.length ≤ maxPayload) :
    (BitVec.ofNat 8 (18 + payload.length)).toNat = 18 + payload.length := by
  rw [maxPayload] at h
  rw [BitVec.toNat_ofNat, Nat.mod_eq_of_lt (by omega)]

theorem outerParse_outerUnit {payload : List Byte} (h : payload.length ≤ maxPayload) (src dst : Addr) (typ : U16) :
    outerParse (outerUnit src dst typ payload)
      = .ok ⟨BitVec.ofNat 8 (18 + payload.length), src, dst, typ⟩ := by
  have hlen := toNat_outerUnit_length h
  rw [maxPayload] at h
  rw [outerParse_eq_ok_iff]
  simp only [outerUnit_byteAt_zero, outerUnit_byteAt_one, outerUnit_byteAt_two, outerUnit_byteAt_three,
    outerUnit_src, outerUnit_dst, outerUnit_typ, outerUnit_length, hlen]
  exact ⟨by omega, trivial, by omega, by omega, trivial, trivial, trivial⟩

/-- An accepted frame of the length its header says is the frame of its own fields: no bit of it is lost. -/
theorem outerUnit_of_outerParse {w : List Byte} {h : OuterHeader} (hok : outerParse w = .ok h)
    (hlen : h.len.toNat = w.length) : outerUnit h.src h.dst h.typ (w.drop outerHlen) = w := by
  obtain ⟨h18, hflag, -, -, hrsvd, hck, rfl⟩ := outerParse_eq_ok_iff.mp hok
  have hn : BitVec.ofNat 8 (outerHlen + (w.drop outerHlen).length) = byteAt w 1 := by
    rw [List.length_drop, outerHlen, Nat.add_sub_cancel' h18, ← hlen]
    simp
  have head : [flag, byteAt w 1, 0x00, flag ^^^ byteAt w 1] ++ w.drop 4 = w := by
    rw [← hflag, ← hrsvd, hflag, ← hck]
    conv_rhs => rw [← List.drop_zero (l := w), ← byteAt_cons_drop (by omega : 0 < w.length),
      ← byteAt_cons_drop (by omega : 0 + 1 < w.length), ← byteAt_cons_drop (by omega : 0 + 1 + 1 < w.length),
      ← byteAt_cons_drop (by omega : 0 + 1 + 1 + 1 < w.length), hflag]
    rfl
  simp only [outerUnit, outerBytes, hn, List.append_assoc]
  rw [outerHlen, show 18 = 16 + 2 from rfl, le16_read16_append_drop (by omega),
    show 16 = 10 + 6 from rfl, addrAt_bytes_append_drop (by omega), show 10 = 4 + 6 from rfl,
    addrAt_bytes_append_drop (by omega), head]

theorem payload_le_of_outerParse {w : List Byte} {h : OuterHeader} (hok : outerParse w = .ok h)
    (hlen : h.len.toNat = w.length) : (w.drop outerHlen).length ≤ maxPayload := by
  obtain ⟨-, -, -, hmax, -, -, rfl⟩ := outerParse_eq_ok_iff.mp hok
  dsimp only at hlen
  rw [List.length_drop, outerHlen, maxPayload]
  omega

/-! ## The address filters (R185, R245) -/

theorem addr_bytes_eq_replicate_iff (a : Addr) (b : Byte) : a.bytes = List.replicate 6 b ↔ a = Addr.fill b := by
  obtain ⟨a0, a1, a2, a3, a4, a5⟩ := a
  simp [Addr.bytes, Addr.fill, List.replicate]

theorem outerFilter_iff (localAddr dst : Addr) :
    outerFilter localAddr dst = true ↔ dst = localAddr ∨ dst = Addr.fill 0xFF ∨ dst = Addr.fill 0x00 := by
  simp [outerFilter, bcast, zeroAddr, or_assoc]

theorem innerFilter_iff (localAddr2 bcast2 to2 : Addr) :
    innerFilter localAddr2 bcast2 to2 = true ↔ to2 = localAddr2 ∨ to2 = bcast2 := by
  simp [innerFilter]

/-! ## The commands -/

theorem exec_outerParse (buf : List Byte) (s : State) :
    exec (.outerParse buf) s
      = answered s (mapOk (fun h => .outerHeader h.len h.src h.dst h.typ) (outerParse buf)) := rfl

theorem exec_outerBuild (src dst : Addr) (typ : U16) (payload : List Byte) (s : State) :
    exec (.outerBuild src dst typ payload) s = answered s (mapOk .bytes (outerBuild src dst typ payload)) := rfl

theorem exec_outerFilter (dst : Addr) (s : State) :
    exec (.outerFilter dst) s = answered s (.ok (.bit (outerFilter s.localAddr dst))) := rfl

theorem exec_innerFilter (dst : Addr) (s : State) :
    exec (.innerFilter dst) s = answered s (.ok (.bit (innerFilter s.localAddr2 s.cfg.bcast2 dst))) := rfl

/-! ## The statements -/

/-- Settles O10: one test after the other, on a buffer whose first four bytes are given. -/
theorem outerParseTestsInOrder : Obligations.OuterParseTestsInOrder := by
  intro buf b0 len rsvd ck rest s
  refine ⟨fun hshort => ?_, ?_⟩
  · rw [exec_outerParse, outerParse_of_short hshort]
    exact answered_err_of_le s .outShort (by omega)
  rintro rfl hrest
  rw [exec_outerParse, outerParse_cons hrest]
  refine ⟨fun hb => ?_, fun hb hbad => ?_, fun hb hmax hr hck => ?_, fun hb hmin hr hck => ?_, ?_⟩
  · rw [if_pos hb, mapOk_err, errOf_byte, failedWith]
  · rw [if_neg (not_not.mpr hb), if_pos hbad, mapOk_err, errOf_byte, failedWith]
  · rw [if_neg (not_not.mpr hb), if_neg (not_or.mpr ⟨not_lt.mpr hmax, not_not.mpr hr⟩), if_pos hck, mapOk_err,
      errOf_byte, failedWith]
  · rw [if_neg (not_not.mpr hb), if_neg (not_or.mpr ⟨by omega, not_not.mpr hr⟩), if_neg (not_not.mpr hck),
      if_pos hmin, mapOk_err, errOf_byte, failedWith]
  · rintro rfl hmin hmax rfl rfl src dst t0 t1 payload rfl
    simp only [not_lt.mpr hmin, not_lt.mpr hmax, read16_eq_word, ne_eq, not_true_eq_false, or_self, if_false]
    rfl

/-- Settles O11. -/
theorem outerBuildLaysOutTheFrame : Obligations.OuterBuildLaysOutTheFrame := by
  intro src dst typ payload s
  refine ⟨fun hfits => ?_, fun hlong => ?_⟩
  · rw [exec_outerBuild, outerBuild_of_le hfits, outerUnit_eq_frameBytes]
    rfl
  · rw [exec_outerBuild, outerBuild_of_lt hlong, mapOk, errOf, info16_eq_min]
    rfl

/-- Settles O12. -/
theorem outerParseReadsWhatOuterBuildBuilt : Obligations.OuterParseReadsWhatOuterBuildBuilt := by
  intro src dst typ payload x s hbuilt
  have hok : outerBuild src dst typ payload = .ok x := by
    rw [exec_outerBuild, answered_inj] at hbuilt
    cases hb : outerBuild src dst typ payload with
    | ok y => simpa [hb, mapOk] using hbuilt
    | err e => simp [hb, mapOk] at hbuilt
  obtain ⟨hlen, rfl⟩ := outerBuild_eq_ok_iff.mp hok
  refine ⟨?_, ?_, rfl⟩
  · rw [exec_outerParse, outerParse_outerUnit hlen, outerUnit_length]
    rfl
  · rw [outerUnit_length]
    rw [maxPayload] at hlen
    omega

/-- Settles O19. -/
theorem outerFilterAcceptsLocalAndBroadcast : Obligations.OuterFilterAcceptsLocalAndBroadcast := by
  intro dst s
  refine ⟨rfl, ?_⟩
  rw [exec_outerFilter]
  simp only [addr_bytes_eq_replicate_iff, ← outerFilter_iff, Bool.decide_eq_true]

/-- Settles O20. -/
theorem innerFilterAcceptsLocalAndBroadcast : Obligations.InnerFilterAcceptsLocalAndBroadcast := by
  intro dst s
  rw [exec_innerFilter]
  simp only [← innerFilter_iff, Bool.decide_eq_true]

end Sys2Proof.Machine

/-! PROOF. The statements of spec/44_inner_message.md on the pure functions: the tests of INNER_PARSE, the checks
and the layout of INNER_BUILD, and the two round trips (R241, R243, R244). -/

namespace Sys2Proof.Machine
open Sys2Proof Sys2Proof.Spec

/-! ## The two fields that share a word with a flag (R112, R113) -/

theorem octet_or (x y : U16) (i : Nat) : octet (x ||| y) i = octet x i ||| octet y i := by
  simp [octet, BitVec.ushiftRight_or_distrib]

theorem and_low15_of_le {v : U16} (h : v.toNat ≤ 0x7FFF) : v &&& 0x7FFF = v := by
  apply BitVec.eq_of_toNat_eq
  rw [BitVec.toNat_and]
  exact (Nat.and_two_pow_sub_one_eq_mod v.toNat 15).trans (Nat.mod_eq_of_lt (by omega))

theorem getLsbD_fifteen_of_le {v : U16} (h : v.toNat ≤ 0x7FFF) : v.getLsbD 15 = false := by
  rw [← and_low15_of_le h]
  simp

theorem toNat_and_low15_le (v : U16) : (v &&& 0x7FFF).toNat ≤ 0x7FFF := by
  rw [BitVec.toNat_and]
  exact Nat.and_le_right

theorem wireTag_and_low15 {m : InnerMessage} (h : m.tag.toNat ≤ 0x7FFF) : wireTag m &&& 0x7FFF = m.tag := by
  have htag := and_low15_of_le h
  unfold wireTag
  apply BitVec.eq_of_getLsbD_eq
  intro i hi
  rw [← htag]
  cases m.first <;> interval_cases i <;> simp

theorem wireTag_getLsbD_fifteen {m : InnerMessage} (h : m.tag.toNat ≤ 0x7FFF) :
    (wireTag m).getLsbD 15 = m.first := by
  rw [wireTag, BitVec.getLsbD_or, getLsbD_fifteen_of_le h, Bool.or_false]
  cases m.first <;> rfl

theorem wireType_and_high {m : InnerMessage} (h : m.msgType.getLsbD 0 = false) :
    wireType m &&& 0xFFFE = m.msgType := by
  unfold wireType
  apply BitVec.eq_of_getLsbD_eq
  intro i hi
  match i with
  | 0 => rw [h]; simp
  | i + 1 =>
    have hi' : i < 15 := by omega
    cases m.response <;> interval_cases i <;> simp

theorem wireType_getLsbD_zero {m : InnerMessage} (h : m.msgType.getLsbD 0 = false) :
    (wireType m).getLsbD 0 = m.response := by
  rw [wireType, BitVec.getLsbD_or, h, Bool.false_or]
  cases m.response <;> rfl

/-- Bit 15 and the other bits of a word make the word again. -/
theorem bit15_or_low15 (v : U16) : (if v.getLsbD 15 then 0x8000 else 0) ||| (v &&& 0x7FFF) = v := by
  apply BitVec.eq_of_getLsbD_eq
  intro i hi
  cases h : v.getLsbD 15 <;> interval_cases i <;> simp_all

/-- Bit 0 and the other bits of a word make the word again. -/
theorem high_or_bit0 (v : U16) : (v &&& 0xFFFE) ||| (if v.getLsbD 0 then 1 else 0) = v := by
  apply BitVec.eq_of_getLsbD_eq
  intro i hi
  cases h : v.getLsbD 0 <;> interval_cases i <;> simp_all

theorem word_and_low15 (lo hi : Byte) : word lo hi &&& 0x7FFF = word lo (hi &&& 0x7F) := by
  have h : (0x7FFF : U16) = (0x7F : Byte) ++ (0xFF : Byte) := by decide
  have hlo : lo &&& 0xFF = lo := BitVec.and_allOnes
  rw [word, h, BitVec.and_append, hlo, word]

theorem word_and_high (lo hi : Byte) : word lo hi &&& 0xFFFE = word (lo &&& 0xFE) hi := by
  have h : (0xFFFE : U16) = (0xFF : Byte) ++ (0xFE : Byte) := by decide
  have hhi : hi &&& 0xFF = hi := BitVec.and_allOnes
  rw [word, h, BitVec.and_append, hhi, word]

theorem word_getLsbD_fifteen (lo hi : Byte) : (word lo hi).getLsbD 15 = hi.getLsbD 7 := by
  rw [word, BitVec.getLsbD_append]
  rfl

theorem word_getLsbD_zero (lo hi : Byte) : (word lo hi).getLsbD 0 = lo.getLsbD 0 := by
  rw [word, BitVec.getLsbD_append]
  rfl

/-! ## Well-formed messages (R240) -/

theorem wf_iff (m : InnerMessage) :
    m.wf = true ↔ m.extra.length % 4 = 0 ∧ m.extra.length ≤ 984 ∧ m.tag.toNat ≤ 0x7FFF
      ∧ m.msgType.getLsbD 0 = false := by
  simp only [InnerMessage.wf, Bool.and_eq_true, decide_eq_true_eq, Bool.not_eq_true', and_assoc]

/-! ## INNER_BUILD (R243) -/

@[simp] theorem innerUnit_length (m : InnerMessage) : (innerUnit m).length = 36 + m.extra.length := by
  simp [innerUnit]
  omega

theorem innerWords_le_iff {m : InnerMessage} : ¬ 255 < innerWords m ↔ m.extra.length < 988 := by
  rw [innerWords, innerHlen]
  omega

theorem toNat_ofNat_innerWords {m : InnerMessage} (h4 : m.extra.length % 4 = 0) (h984 : m.extra.length ≤ 984) :
    (BitVec.ofNat 8 (innerWords m)).toNat * 4 = 36 + m.extra.length := by
  rw [innerWords, innerHlen, BitVec.toNat_ofNat, Nat.mod_eq_of_lt (by omega)]
  omega

theorem innerBuild_of_misaligned {m : InnerMessage} (h : m.extra.length % 4 ≠ 0) :
    innerBuild m = .err (errOf .extraAlign (m.extra.length % 4)) := if_pos h

theorem innerBuild_of_long {m : InnerMessage} (h4 : m.extra.length % 4 = 0) (h : 984 < m.extra.length) :
    innerBuild m = .err (errOf .innerTooLong 0) := by
  rw [innerBuild, if_neg (not_not.mpr h4), if_pos (by rw [innerWords, innerHlen]; omega)]

theorem innerBuild_of_fits {m : InnerMessage} (h4 : m.extra.length % 4 = 0) (h : m.extra.length ≤ 984) :
    innerBuild m =
      if 0x7FFF < m.tag.toNat then .err (errOf .tagRange 0)
      else if m.msgType.getLsbD 0 then .err (errOf .typeBit0 m.msgType.toNat)
      else .ok (innerUnit m) := by
  rw [innerBuild, if_neg (not_not.mpr h4), if_neg (innerWords_le_iff.mpr (by omega))]

/-- INNER_BUILD builds exactly the well-formed messages. -/
theorem innerBuild_eq_ok_iff {m : InnerMessage} {body : List Byte} :
    innerBuild m = .ok body ↔ m.wf = true ∧ body = innerUnit m := by
  rw [wf_iff]
  by_cases h4 : m.extra.length % 4 = 0
  · by_cases h984 : m.extra.length ≤ 984
    · rw [innerBuild_of_fits h4 h984]
      by_cases htag : m.tag.toNat ≤ 0x7FFF
      · cases hbit : m.msgType.getLsbD 0 <;> simp [h4, h984, htag, not_lt.mpr htag, eq_comm]
      · simp [htag, not_le.mp htag]
    · simp [innerBuild_of_long h4 (not_le.mp h984), h984]
  · simp [innerBuild_of_misaligned h4, h4]

theorem innerBuild_of_wf {m : InnerMessage} (h : m.wf = true) : innerBuild m = .ok (innerUnit m) :=
  innerBuild_eq_ok_iff.mpr ⟨h, rfl⟩

/-- The bytes of a message, every field of R110 by its bytes. -/
theorem innerUnit_eq_octets (m : InnerMessage) : innerUnit m =
    [BitVec.ofNat 8 (9 + m.extra.length / 4), m.a2] ++ m.to2.bytes ++ [m.b1, m.b2] ++ m.from2.bytes
      ++ [m.c1, m.c2, octet m.error 0, octet m.error 1, octet m.pktcount 0, octet m.pktcount 1,
          octet m.tag 0, octet m.tag 1 ||| (if m.first then 0x80 else 0),
          octet m.msgType 0 ||| (if m.response then 1 else 0), octet m.msgType 1,
          octet m.subtype 0, octet m.subtype 1,
          octet m.arg1 0, octet m.arg1 1, octet m.arg1 2, octet m.arg1 3,
          octet m.arg2 0, octet m.arg2 1, octet m.arg2 2, octet m.arg2 3] ++ m.extra := by
  have hwords : innerWords m = 9 + m.extra.length / 4 := by rw [innerWords, innerHlen]; omega
  have htag0 : octet (wireTag m) 0 = octet m.tag 0 := by
    rw [wireTag, octet_or]
    cases m.first <;> exact BitVec.zero_or
  have htag1 : octet (wireTag m) 1 = octet m.tag 1 ||| (if m.first then 0x80 else 0) := by
    rw [wireTag, octet_or, BitVec.or_comm]
    cases m.first <;> rfl
  have htype0 : octet (wireType m) 0 = octet m.msgType 0 ||| (if m.response then 1 else 0) := by
    rw [wireType, octet_or]
    cases m.response <;> rfl
  have htype1 : octet (wireType m) 1 = octet m.msgType 1 := by
    rw [wireType, octet_or]
    cases m.response <;> exact BitVec.or_zero
  simp only [innerUnit, le16_eq_octets, le32_eq_octets, hwords, htag0, htag1, htype0, htype1]
  rfl

/-! ## INNER_PARSE (R241) -/

theorem innerParse_of_short {body : List Byte} (h : body.length < 36) :
    innerParse body = .err (errOf .innerShort body.length) := if_pos h

theorem innerParse_of_wrong_length {body : List Byte} (h36 : 36 ≤ body.length)
    (h : (byteAt body 0).toNat * 4 ≠ body.length) :
    innerParse body = .err (errOf .innerLen (byteAt body 0).toNat) :=
  (if_neg (by rw [innerHlen]; omega)).trans (if_pos h)

theorem innerParse_eq_ok_iff {body : List Byte} {m : InnerMessage} :
    innerParse body = .ok m ↔
      36 ≤ body.length ∧ (byteAt body 0).toNat * 4 = body.length ∧ m = innerFields body := by
  by_cases h36 : 36 ≤ body.length
  · by_cases hlen : (byteAt body 0).toNat * 4 = body.length
    · rw [innerParse, if_neg (by rw [innerHlen]; omega), if_neg (not_not.mpr hlen)]
      simp [h36, hlen, eq_comm]
    · simp [innerParse_of_wrong_length h36 hlen, hlen]
  · simp [innerParse_of_short (not_le.mp h36), h36]

section
variable (n a2 b1 b2 c1 c2 e0 e1 p0 p1 g0 g1 y0 y1 u0 u1 x0 x1 x2 x3 z0 z1 z2 z3 : Byte) (to2 from2 : Addr)
  (extra : List Byte)

/-- Every field of a body in the layout of R110, with the tag and type words as they stand. -/
theorem innerFields_of_words :
    innerFields ([n, a2] ++ to2.bytes ++ [b1, b2] ++ from2.bytes
        ++ [c1, c2, e0, e1, p0, p1, g0, g1, y0, y1, u0, u1, x0, x1, x2, x3, z0, z1, z2, z3] ++ extra) =
      { a2, to2, b1, b2, from2, c1, c2, error := word e0 e1, pktcount := word p0 p1,
        tag := word g0 g1 &&& 0x7FFF, first := (word g0 g1).getLsbD 15, response := (word y0 y1).getLsbD 0,
        msgType := word y0 y1 &&& 0xFFFE, subtype := word u0 u1, arg1 := word32 x0 x1 x2 x3,
        arg2 := word32 z0 z1 z2 z3, extra } := by
  simp only [innerFields, read16_eq_word, read32_eq_word32]
  rfl

/-- Every field of a body in the layout of R110, with the tag and type words taken apart byte by byte. -/
theorem innerFields_of_layout :
    innerFields ([n, a2] ++ to2.bytes ++ [b1, b2] ++ from2.bytes
        ++ [c1, c2, e0, e1, p0, p1, g0, g1, y0, y1, u0, u1, x0, x1, x2, x3, z0, z1, z2, z3] ++ extra) =
      { a2, to2, b1, b2, from2, c1, c2, error := word e0 e1, pktcount := word p0 p1,
        tag := word g0 (g1 &&& 0x7F), first := g1.getLsbD 7, response := y0.getLsbD 0,
        msgType := word (y0 &&& 0xFE) y1, subtype := word u0 u1, arg1 := word32 x0 x1 x2 x3,
        arg2 := word32 z0 z1 z2 z3, extra } := by
  rw [innerFields_of_words, word_and_low15, word_and_high, word_getLsbD_fifteen, word_getLsbD_zero]

end

/-! ## The round trips (R244) -/

theorem innerFields_innerUnit {m : InnerMessage} (h : m.wf = true) : innerFields (innerUnit m) = m := by
  obtain ⟨-, -, htag, hbit⟩ := (wf_iff m).mp h
  have hwire : innerFields (innerUnit m) =
      { m with tag := wireTag m &&& 0x7FFF, first := (wireTag m).getLsbD 15,
               response := (wireType m).getLsbD 0, msgType := wireType m &&& 0xFFFE } := by
    simp only [innerUnit, le16_eq_octets, le32_eq_octets]
    refine (innerFields_of_words _ _ _ _ _ _ _ _ _ _ _ _ _ _ _ _ _ _ _ _ _ _ _ _ m.to2 m.from2 m.extra).trans ?_
    simp only [word_octets, word32_octets]
  rw [hwire, wireTag_and_low15 htag, wireTag_getLsbD_fifteen htag, wireType_and_high hbit,
    wireType_getLsbD_zero hbit]

theorem innerParse_innerUnit {m : InnerMessage} (h : m.wf = true) : innerParse (innerUnit m) = .ok m := by
  obtain ⟨h4, h984, -, -⟩ := (wf_iff m).mp h
  refine innerParse_eq_ok_iff.mpr ⟨by rw [innerUnit_length]; omega, ?_, (innerFields_innerUnit h).symm⟩
  rw [innerUnit_length]
  exact toNat_ofNat_innerWords h4 h984

theorem wireTag_innerFields (body : List Byte) : wireTag (innerFields body) = read16 body 22 :=
  bit15_or_low15 _

theorem wireType_innerFields (body : List Byte) : wireType (innerFields body) = read16 body 24 :=
  high_or_bit0 _

theorem innerFields_wf {body : List Byte} (h36 : 36 ≤ body.length)
    (hlen : (byteAt body 0).toNat * 4 = body.length) : (innerFields body).wf = true := by
  have hn := (byteAt body 0).isLt
  have hextra : (innerFields body).extra.length = body.length - 36 := List.length_drop
  refine (wf_iff _).mpr ⟨by omega, by omega, toNat_and_low15_le _, ?_⟩
  simp [innerFields]

/-- A body that INNER_PARSE accepts is the body of its own fields: no bit of it is lost. -/
theorem innerUnit_innerFields {body : List Byte} (h36 : 36 ≤ body.length)
    (hlen : (byteAt body 0).toNat * 4 = body.length) : innerUnit (innerFields body) = body := by
  have hn : BitVec.ofNat 8 (innerWords (innerFields body)) = byteAt body 0 := by
    have hextra : (innerFields body).extra.length = body.length - 36 := List.length_drop
    rw [innerWords, innerHlen, hextra, Nat.add_sub_cancel' h36, ← hlen, Nat.mul_div_cancel _ (by decide)]
    simp
  simp only [innerUnit, hn, wireTag_innerFields, wireType_innerFields, List.append_assoc]
  simp only [innerFields, innerHlen]
  rw [le32_read32_append_drop (off := 32) (by omega), le32_read32_append_drop (off := 28) (by omega),
    le16_read16_append_drop (off := 26) (by omega), le16_read16_append_drop (off := 24) (by omega),
    le16_read16_append_drop (off := 22) (by omega), le16_read16_append_drop (off := 20) (by omega),
    le16_read16_append_drop (off := 18) (by omega)]
  simp only [List.cons_append, List.nil_append]
  rw [byteAt_cons_drop (off := 17) (by omega), byteAt_cons_drop (off := 16) (by omega),
    addrAt_bytes_append_drop (off := 10) (by omega), byteAt_cons_drop (off := 9) (by omega),
    byteAt_cons_drop (off := 8) (by omega), addrAt_bytes_append_drop (off := 2) (by omega),
    byteAt_cons_drop (off := 1) (by omega), byteAt_cons_drop (off := 0) (by omega), List.drop_zero]

theorem wf_and_innerUnit_of_innerParse {body : List Byte} {m : InnerMessage} (h : innerParse body = .ok m) :
    m.wf = true ∧ innerUnit m = body := by
  obtain ⟨h36, hlen, rfl⟩ := innerParse_eq_ok_iff.mp h
  exact ⟨innerFields_wf h36 hlen, innerUnit_innerFields h36 hlen⟩

/-! ## The commands -/

theorem exec_innerParse (body : List Byte) (s : State) :
    exec (.innerParse body) s = answered s (mapOk .message (innerParse body)) := rfl

theorem exec_innerBuild (m : InnerMessage) (s : State) :
    exec (.innerBuild m) s = answered s (mapOk .bytes (innerBuild m)) := rfl

/-! ## The statements -/

/-- Settles O16. -/
theorem innerParseReadsEveryField : Obligations.InnerParseReadsEveryField := by
  intro body s
  refine ⟨fun hshort => ?_, ?_, ?_⟩
  · rw [exec_innerParse, innerParse_of_short hshort]
    exact answered_err_of_le s .innerShort (by omega)
  · rintro n r rfl h36 hlen
    rw [exec_innerParse, innerParse_of_wrong_length h36 hlen, mapOk_err, errOf_byte]
    rfl
  · rintro n a2 b1 b2 c1 c2 e0 e1 p0 p1 g0 g1 y0 y1 u0 u1 x0 x1 x2 x3 z0 z1 z2 z3 to2 from2 extra rfl hlen
    have h36 : 36 ≤ ([n, a2] ++ to2.bytes ++ [b1, b2] ++ from2.bytes
        ++ [c1, c2, e0, e1, p0, p1, g0, g1, y0, y1, u0, u1, x0, x1, x2, x3, z0, z1, z2, z3] ++ extra).length := by
      simp
      omega
    rw [exec_innerParse, innerParse_eq_ok_iff.mpr ⟨h36, hlen, rfl⟩, innerFields_of_layout, mapOk_ok]

/-- Settles O17. -/
theorem innerBuildLaysOutEveryField : Obligations.InnerBuildLaysOutEveryField := by
  intro m s
  refine ⟨fun h4 => ?_, fun h4 hlong => ?_, fun h4 h984 htag => ?_, fun h4 h984 htag hbit => ?_, fun hwf => ?_⟩
  · rw [exec_innerBuild, innerBuild_of_misaligned h4]
    exact answered_err_of_le s .extraAlign (by omega)
  · rw [exec_innerBuild, innerBuild_of_long h4 hlong]
    rfl
  · rw [exec_innerBuild, innerBuild_of_fits h4 h984, if_pos htag]
    rfl
  · rw [exec_innerBuild, innerBuild_of_fits h4 h984, if_neg (not_lt.mpr htag), if_pos hbit, errOf_toNat, mapOk_err]
  · rw [exec_innerBuild, innerBuild_of_wf hwf, innerUnit_eq_octets, mapOk_ok]

/-- Settles O18, both directions from the round trips of the pure functions. -/
theorem innerParseAndBuildAreInverse : Obligations.InnerParseAndBuildAreInverse := by
  intro m body s
  refine ⟨fun hwf hbuilt => ?_, fun hparsed => ?_⟩
  · rw [exec_innerBuild, innerBuild_of_wf hwf, mapOk_ok, answered_inj] at hbuilt
    have hbody : innerUnit m = body := by simpa using hbuilt
    rw [exec_innerParse, ← hbody, innerParse_innerUnit hwf, mapOk_ok]
  · have hok : innerParse body = .ok m := by
      rw [exec_innerParse, answered_inj] at hparsed
      cases hp : innerParse body with
      | ok x => simpa [hp] using hparsed
      | err e => simp [hp] at hparsed
    obtain ⟨hwf, hbody⟩ := wf_and_innerUnit_of_innerParse hok
    exact ⟨hwf, by rw [exec_innerBuild, innerBuild_of_wf hwf, hbody, mapOk_ok]⟩

end Sys2Proof.Machine

/-! PROOF. The other statements of spec/40_escape_codec.md (STUFF, ESC_DEC, DESTUFF) and those of
spec/43_ppp_engine.md on the pure functions: PPP_EXTRACT, PPP_BUILD and their round trip (R212, R214, R215). -/

namespace Sys2Proof.Machine
open Sys2Proof Sys2Proof.Spec

/-! ## STUFF (R142) -/

theorem stuff_eq (frame : List Byte) : stuff frame = [0x7E] ++ frame.flatMap escaped ++ [0x7E] := by
  rw [stuff, escEnc_eq_flatMap_escaped]
  rfl

theorem flag_not_mem_flatMap_escaped (data : List Byte) : flag ∉ data.flatMap escaped :=
  not_mem_flatMap_escaped data (by decide) (by decide)

theorem escaped_length (b : Byte) : (escaped b).length = 1 + if reserved b then 1 else 0 := by
  by_cases h : reserved b = true
  · rw [escaped_of_reserved h, if_pos h]
    rfl
  · rw [escaped_of_not_reserved h, if_neg h]
    rfl

/-- Stuffing adds one byte for each reserved byte, and the two flags. -/
theorem stuff_length (frame : List Byte) : (stuff frame).length = frame.length + frame.countP reserved + 2 := by
  have hbody : (frame.flatMap escaped).length = frame.length + frame.countP reserved := by
    induction frame with
    | nil => rfl
    | cons b rest ih =>
      rw [List.flatMap_cons, List.length_append, ih, escaped_length, List.countP_cons, List.length_cons]
      omega
  rw [stuff_eq]
  simp only [List.length_append, List.length_singleton, hbody]
  omega

/-! ## ESC_DEC, the index scan of R143 -/

/-- The scan from index `i` decodes what is left of the body and appends it to the output so far. -/
theorem escDecScan_eq (body : List Byte) :
    ∀ (fuel i : Nat) (out : List Byte), body.length < fuel + i →
      escDecScan body fuel i out = mapOk (fun x => .bytes (out ++ x)) (escDec (body.drop i)) := by
  intro fuel
  induction fuel with
  | zero =>
    intro i out h
    rw [List.drop_of_length_le (by omega)]
    simp [escDecScan, escDec]
  | succ fuel ih =>
    intro i out h
    rw [escDecScan]
    cases hb : body[i]? with
    | none =>
      rw [List.drop_of_length_le (List.getElem?_eq_none_iff.mp hb)]
      simp [escDec]
    | some b =>
      rw [List.drop_eq_getElem?_toList_append, hb]
      dsimp only [Option.toList_some, List.cons_append, List.nil_append]
      by_cases hesc : b = esc
      · refine (if_pos hesc).trans ?_
        rw [hesc]
        cases hv : body[i + 1]? with
        | none =>
          rw [List.drop_of_length_le (List.getElem?_eq_none_iff.mp hv)]
          rfl
        | some v =>
          rw [List.drop_eq_getElem?_toList_append (i := i + 1), hv]
          dsimp only [Option.toList_some, List.cons_append, List.nil_append]
          rw [escDec_esc_cons, ih _ _ (by omega)]
          cases escDec (body.drop (i + 2)) <;> simp [escXor]
      · refine (if_neg hesc).trans ?_
        rw [escDec_cons_of_ne_esc hesc, ih _ _ (by omega)]
        cases escDec (body.drop (i + 1)) <;> simp

theorem escDecScan_eq_escDec (body : List Byte) :
    escDecScan body (body.length + 1) 0 [] = mapOk .bytes (escDec body) :=
  escDecScan_eq body _ 0 [] (by omega)

/-! ## DESTUFF, the flag checks of R144 -/

theorem destuff_of_no_opening_flag {raw : List Byte} (h : raw.head? ≠ some flag) :
    destuff raw = .err (errOf .noOpenFlag 0) := by
  cases raw with
  | nil => rfl
  | cons b rest => exact if_pos (fun hb => h (congrArg some hb))

theorem destuff_of_no_closing_flag {rest : List Byte} (h : rest.getLast? ≠ some flag) :
    destuff (flag :: rest) = .err (errOf .badTerm 0) := by
  simp [destuff, h]

theorem destuff_of_flag_mem {body : List Byte} (h : flag ∈ body) :
    destuff (flag :: (body ++ [flag])) = .err (errOf .badTerm 0) := by
  simp [destuff, h]

/-! ## PPP_EXTRACT (R212) -/

theorem pppOpen_of_short {f : List Byte} (h : f.length < 6) : pppOpen f = .err (errOf .pppShort f.length) := if_pos h

/-- The marker and FCS checks on a frame in the layout of R105. -/
theorem pppOpen_layout (m0 m1 p0 p1 c0 c1 : Byte) (body : List Byte) :
    pppOpen ([m0, m1, p0, p1] ++ body ++ [c0, c1]) =
      if m0 ≠ 0xFF ∨ m1 ≠ 0x03 then .err ⟨.badMarker, word m0 m1⟩
      else if crc16 ([m0, m1, p0, p1] ++ body) ≠ word c0 c1 then .err (errOf .pppCrc 0)
      else .ok ⟨word p0 p1, body⟩ := by
  have hmarker : errOf .badMarker (leNat [m0, m1]) = ⟨.badMarker, word m0 m1⟩ := by
    have hlt := leNat_lt [m0, m1]
    rw [errOf_of_le (by simp at hlt; omega), ofNat_leNat_eq_word]
  have hlen : ¬ ([m0, m1, p0, p1] ++ body ++ [c0, c1]).length < 6 := by simp
  have hbody : bytesAt ([m0, m1, p0, p1] ++ body ++ [c0, c1]) 4
      (([m0, m1, p0, p1] ++ body ++ [c0, c1]).length - 6) = body := by
    simp [bytesAt]
  rw [pppOpen, if_neg hlen, hbody, take_length_sub_two, read16_length_sub_two, ← hmarker, read16_eq_word]
  rfl

theorem exists_ppp_layout {f : List Byte} (h : 6 ≤ f.length) :
    ∃ m0 m1 p0 p1 body c0 c1, f = [m0, m1, p0, p1] ++ body ++ [c0, c1] := by
  obtain ⟨m0, m1, p0, p1, rest, rfl⟩ : ∃ m0 m1 p0 p1 rest, f = m0 :: m1 :: p0 :: p1 :: rest := by
    match f, h with
    | m0 :: m1 :: p0 :: p1 :: rest, _ => exact ⟨m0, m1, p0, p1, rest, rfl⟩
  have hrest : 2 ≤ rest.length := by simpa using h
  obtain ⟨front, c1, rfl⟩ := List.eq_nil_or_concat' rest |>.resolve_left (by rintro rfl; simp at hrest)
  obtain ⟨body, c0, rfl⟩ := List.eq_nil_or_concat' front |>.resolve_left (by rintro rfl; simp at hrest)
  exact ⟨m0, m1, p0, p1, body, c0, c1, by simp⟩

theorem pppUnit_eq_octets (protocol : U16) (body : List Byte) :
    pppUnit protocol body = ([0xFF, 0x03, octet protocol 0, octet protocol 1] ++ body)
      ++ [octet (crc16 ([0xFF, 0x03, octet protocol 0, octet protocol 1] ++ body)) 0,
          octet (crc16 ([0xFF, 0x03, octet protocol 0, octet protocol 1] ++ body)) 1] := by
  rw [pppUnit, crcAppend_eq, le16_eq_octets]
  rfl

/-- The checks of R212 accept exactly the de-stuffed frames that PPP_BUILD makes. -/
theorem pppOpen_eq_ok_iff {f : List Byte} {x : PppFrame} : pppOpen f = .ok x ↔ f = pppUnit x.protocol x.body := by
  constructor
  · intro hok
    have hlen : 6 ≤ f.length := by
      by_contra hshort
      rw [pppOpen_of_short (not_le.mp hshort)] at hok
      cases hok
    obtain ⟨m0, m1, p0, p1, body, c0, c1, rfl⟩ := exists_ppp_layout hlen
    rw [pppOpen_layout] at hok
    split_ifs at hok with hmarker hcrc
    obtain rfl := Result.ok.inj hok
    rw [not_or, not_not, not_not] at hmarker
    obtain ⟨rfl, rfl⟩ := hmarker
    rw [pppUnit_eq_octets, octet_word_zero, octet_word_one, not_not.mp hcrc, octet_word_zero, octet_word_one]
  · rintro rfl
    rw [pppUnit_eq_octets, pppOpen_layout, word_octets, word_octets, if_neg (by decide), if_neg (not_not.mpr rfl)]

@[simp] theorem pppUnit_length (protocol : U16) (body : List Byte) :
    (pppUnit protocol body).length = body.length + 6 := by
  simp [pppUnit_eq_octets]

theorem pppExtract_pppBuild (protocol : U16) (body : List Byte) :
    pppExtract (pppBuild protocol body) = .ok ⟨protocol, body⟩ := by
  rw [pppExtract, pppBuild, destuff_stuff, andThen_ok]
  exact pppOpen_eq_ok_iff.mpr rfl

/-! ## The commands -/

theorem exec_pppExtract (raw : List Byte) (s : State) :
    exec (.pppExtract raw) s = answered s (mapOk (fun f => .pppFrame f.protocol f.body) (pppExtract raw)) := rfl

theorem exec_pppBuild (protocol : U16) (body : List Byte) (s : State) :
    exec (.pppBuild protocol body) s = answered s (.ok (.bytes (pppBuild protocol body))) := rfl

/-! ## The statements -/

/-- Settles O2. -/
theorem stuffWrapsInOneFlagPair : Obligations.StuffWrapsInOneFlagPair := by
  intro frame s
  refine ⟨rfl, ?_, flag_not_mem_flatMap_escaped frame⟩
  rw [exec_stuff, stuff_eq]

/-- Settles O3, by the loop invariant of the scan. -/
theorem escDecIsTheIndexScan : Obligations.EscDecIsTheIndexScan := by
  intro body s
  rw [exec_escDec, escDecScan_eq_escDec]

/-- Settles O4. -/
theorem destuffChecksFlagsThenDecodes : Obligations.DestuffChecksFlagsThenDecodes := by
  intro raw body s
  refine ⟨fun hopen => ?_, fun hopen hclose => ?_, fun hmem => ?_, fun hmem => ?_⟩
  · rw [exec_destuff, destuff_of_no_opening_flag hopen]
    rfl
  · obtain ⟨rest, rfl⟩ := List.head?_eq_some_iff.mp hopen
    have hlast : rest.getLast? ≠ some flag := by
      cases rest with
      | nil => simp
      | cons c cs =>
        rw [List.getLast?_cons_cons] at hclose
        exact hclose.resolve_left (by simp)
    rw [exec_destuff]
    exact congrArg (fun r => answered s (mapOk .bytes r)) (destuff_of_no_closing_flag hlast)
  · exact congrArg (fun r => answered s (mapOk .bytes r)) (destuff_of_flag_mem hmem)
  · rw [escDecScan_eq_escDec]
    exact congrArg (fun r => answered s (mapOk .bytes r)) (destuff_of_flag_not_mem hmem)

/-- Settles O13: the tests in their order on a frame in the layout of R105. -/
theorem pppExtractTestsInOrder : Obligations.PppExtractTestsInOrder := by
  intro raw f body p0 p1 c0 c1 e s
  refine ⟨fun hraw => ?_, fun hraw hshort => ?_, fun hraw hlen m0 m1 htake hmarker => ?_, fun hraw hcrc => ?_,
    fun hraw hcrc => ?_⟩
  all_goals rw [exec_pppExtract, pppExtract, hraw]
  · rfl
  · rw [andThen_ok, pppOpen_of_short hshort]
    exact answered_err_of_le s .pppShort (by omega)
  · obtain ⟨n0, n1, q0, q1, rest, d0, d1, rfl⟩ := exists_ppp_layout hlen
    obtain ⟨rfl, rfl⟩ : n0 = m0 ∧ n1 = m1 := by simpa using htake
    rw [andThen_ok, pppOpen_layout, if_pos hmarker, mapOk_err]
  · rw [andThen_ok, pppOpen_layout, if_neg (by decide), crc16_eq_tableCrc, if_pos hcrc]
    rfl
  · rw [andThen_ok, pppOpen_layout, if_neg (by decide), crc16_eq_tableCrc, if_neg (not_not.mpr hcrc), mapOk_ok]

/-- Settles O14. -/
theorem pppBuildStuffsTheWholeFrame : Obligations.PppBuildStuffsTheWholeFrame := by
  rintro protocol body frame s rfl
  refine ⟨?_, crc16 _, exec_crc16 _ s, ?_⟩
  · have htake : takeU16 (octet protocol 0 :: octet protocol 1 :: body) = .ok (protocol, body) := by
      rw [takeU16, ofNat_leNat_eq_word, word_octets]
    show decodePppBuild _ = _
    rw [decodePppBuild, htake]
    rfl
  · rw [exec_pppBuild, pppBuild, stuff_eq, pppUnit_eq_octets]

/-- Settles O15. -/
theorem pppExtractUndoesPppBuild : Obligations.PppExtractUndoesPppBuild := by
  intro protocol body raw s hbuilt
  rw [exec_pppBuild, answered_inj] at hbuilt
  have hraw : pppBuild protocol body = raw := by simpa using hbuilt
  rw [exec_pppExtract, ← hraw, pppExtract_pppBuild, mapOk_ok]

end Sys2Proof.Machine

/-! PROOF. Decoding and encoding undo each other (spec/30_encoding.md R95, R100, R105, R110, R130). Each parser
of operands is characterised once: it answers a value exactly on what that value is packed into. -/

namespace Sys2Proof.Machine
open Sys2Proof Sys2Proof.Spec

/-! ## Sequences of parsers -/

theorem bind_eq_ok_iff {ε α β : Type} {x : Except ε α} {f : α → Except ε β} {b : β} :
    (x >>= f) = .ok b ↔ ∃ a, x = .ok a ∧ f a = .ok b := by
  cases x with
  | error e => simp [bind, Except.bind]
  | ok a => simp [bind, Except.bind]

theorem map_eq_ok_iff {ε α β : Type} {x : Except ε α} {f : α → β} {b : β} :
    x.map f = .ok b ↔ ∃ a, x = .ok a ∧ f a = b := by
  cases x <;> simp [Except.map]

/-! ## One operand -/

theorem takeByte_eq_ok_iff {bs r : List Byte} {v : Byte} : takeByte bs = .ok (v, r) ↔ bs = v :: r := by
  cases bs <;> simp [takeByte]

theorem takeU16_eq_ok_iff {bs r : List Byte} {v : U16} : takeU16 bs = .ok (v, r) ↔ bs = le16 v ++ r := by
  constructor
  · intro h
    match bs, h with
    | b0 :: b1 :: rest, h =>
      obtain ⟨rfl, rfl⟩ := Prod.mk.inj (Except.ok.inj h)
      rw [ofNat_leNat_eq_word, le16_word]
      rfl
  · rintro rfl
    rw [le16_eq_octets]
    exact congrArg (fun v => Except.ok (v, r)) ((ofNat_leNat_eq_word _ _).trans (word_octets v))

theorem takeU32_eq_ok_iff {bs r : List Byte} {v : U32} : takeU32 bs = .ok (v, r) ↔ bs = le32 v ++ r := by
  constructor
  · intro h
    match bs, h with
    | b0 :: b1 :: b2 :: b3 :: rest, h =>
      obtain ⟨rfl, rfl⟩ := Prod.mk.inj (Except.ok.inj h)
      rw [ofNat_leNat_eq_word32, le32_word32]
      rfl
  · rintro rfl
    rw [le32_eq_octets]
    exact congrArg (fun v => Except.ok (v, r)) ((ofNat_leNat_eq_word32 _ _ _ _).trans (word32_octets v))

theorem takeAddr_eq_ok_iff {bs r : List Byte} {a : Addr} : takeAddr bs = .ok (a, r) ↔ bs = a.bytes ++ r := by
  constructor
  · intro h
    match bs, h with
    | b0 :: b1 :: b2 :: b3 :: b4 :: b5 :: rest, h =>
      obtain ⟨rfl, rfl⟩ := Prod.mk.inj (Except.ok.inj h)
      rfl
  · rintro rfl
    rfl

theorem takeMode_eq_ok_iff {bs r : List Byte} {m : Mode} : takeMode bs = .ok (m, r) ↔ bs = packMode m ++ r := by
  constructor
  · intro h
    cases bs with
    | nil => cases h
    | cons b rest =>
      rw [takeMode] at h
      split_ifs at h with h0 h1
      · obtain ⟨rfl, rfl⟩ := Prod.mk.inj (Except.ok.inj h)
        exact congrArg (· :: rest) h0
      · obtain ⟨rfl, rfl⟩ := Prod.mk.inj (Except.ok.inj h)
        exact congrArg (· :: rest) h1
  · rintro rfl
    cases m <;> rfl

/-- An operand that may be absent is there exactly as its selector bit says. -/
theorem takeIf_eq_ok_iff {α : Type} {take : List Byte → Take α} {pack : α → List Byte}
    (htake : ∀ {bs r v}, take bs = .ok (v, r) ↔ bs = pack v ++ r) {present : Bool} {bs r : List Byte}
    {v : Option α} : takeIf present take bs = .ok (v, r) ↔ v.isSome = present ∧ bs = packIf pack v ++ r := by
  cases present with
  | false => cases v <;> simp [takeIf, packIf]
  | true =>
    cases v with
    | none => cases h : take bs <;> simp [takeIf, h]
    | some x =>
      have hx : takeIf true take bs = .ok (some x, r) ↔ take bs = .ok (x, r) := by
        cases h : take bs <;> simp [takeIf, h, Prod.ext_iff]
      rw [hx, htake]
      simp [packIf]

theorem atEnd_eq_ok_iff {α : Type} {t : Take α} {v : α} : atEnd t = .ok v ↔ t = .ok (v, []) := by
  rcases t with e | ⟨x, _ | ⟨b, r⟩⟩ <;> simp [atEnd]

theorem noOperands_eq_ok_iff {i j : Instr} {bs : List Byte} : noOperands i bs = .ok j ↔ bs = [] ∧ i = j := by
  cases bs <;> simp [noOperands]

/-! ## The flags byte and the message operand -/

theorem packFlags_getLsbD (flags : Byte) (h : flags &&& 0xFC = 0) :
    packFlags (flags.getLsbD 0) (flags.getLsbD 1) = flags := by
  revert flags
  decide

theorem packFlags_and (first response : Bool) : packFlags first response &&& 0xFC = 0 := by
  cases first <;> cases response <;> rfl

theorem packFlags_getLsbD_zero (first response : Bool) : (packFlags first response).getLsbD 0 = first := by
  cases first <;> cases response <;> rfl

theorem packFlags_getLsbD_one (first response : Bool) : (packFlags first response).getLsbD 1 = response := by
  cases first <;> cases response <;> rfl

/-- A message operand is read exactly from the bytes it is packed into. -/
theorem takeMsg_eq_ok_iff {bs : List Byte} {m : InnerMessage} : takeMsg bs = .ok m ↔ bs = packMsg m := by
  unfold takeMsg
  simp only [bind_eq_ok_iff, Prod.exists, takeByte_eq_ok_iff, takeU16_eq_ok_iff, takeU32_eq_ok_iff,
    takeAddr_eq_ok_iff]
  constructor
  · rintro ⟨a2, _, rfl, to2, _, rfl, b1, _, rfl, b2, _, rfl, from2, _, rfl, c1, _, rfl, c2, _, rfl, error, _, rfl,
      pktcount, _, rfl, tag, _, rfl, flags, _, rfl, msgType, _, rfl, subtype, _, rfl, arg1, _, rfl, arg2, extra, rfl,
      hm⟩
    split_ifs at hm with hflags
    obtain rfl := Except.ok.inj hm
    simp only [packMsg, packFlags_getLsbD flags hflags, List.append_assoc, List.cons_append, List.nil_append]
  · rintro rfl
    refine ⟨m.a2, _, by simp only [packMsg, List.append_assoc, List.cons_append, List.nil_append], m.to2, _, rfl,
      m.b1, _, rfl, m.b2, _, rfl, m.from2, _, rfl, m.c1, _, rfl, m.c2, _, rfl, m.error, _, rfl, m.pktcount, _, rfl,
      m.tag, _, rfl, packFlags m.first m.response, _, rfl, m.msgType, _, rfl, m.subtype, _, rfl, m.arg1, _, rfl,
      m.arg2, m.extra, rfl, ?_⟩
    rw [if_pos (packFlags_and _ _), packFlags_getLsbD_zero, packFlags_getLsbD_one]

/-! ## Commands with several operands -/

theorem decodeOuterBuild_eq_ok_iff {bs : List Byte} {i : Instr} :
    decodeOuterBuild bs = .ok i ↔
      ∃ src dst typ payload, bs = src.bytes ++ dst.bytes ++ le16 typ ++ payload
        ∧ i = .outerBuild src dst typ payload := by
  unfold decodeOuterBuild
  simp only [bind_eq_ok_iff, Prod.exists, takeAddr_eq_ok_iff, takeU16_eq_ok_iff]
  constructor
  · rintro ⟨src, _, rfl, dst, _, rfl, typ, payload, rfl, hi⟩
    exact ⟨src, dst, typ, payload, by simp only [List.append_assoc], (Except.ok.inj hi).symm⟩
  · rintro ⟨src, dst, typ, payload, rfl, rfl⟩
    exact ⟨src, _, by simp only [List.append_assoc], dst, _, rfl, typ, payload, rfl, rfl⟩

theorem decodePppBuild_eq_ok_iff {bs : List Byte} {i : Instr} :
    decodePppBuild bs = .ok i ↔ ∃ protocol body, bs = le16 protocol ++ body ∧ i = .pppBuild protocol body := by
  unfold decodePppBuild
  simp only [bind_eq_ok_iff, Prod.exists, takeU16_eq_ok_iff, Except.ok.injEq]
  simp only [eq_comm]

theorem decodeArm_eq_ok_iff {bs : List Byte} {i : Instr} :
    decodeArm bs = .ok i ↔ ∃ tag mode, bs = le16 tag ++ packMode mode ∧ i = .arm tag mode := by
  unfold decodeArm
  simp only [bind_eq_ok_iff, Prod.exists, takeU16_eq_ok_iff, atEnd_eq_ok_iff, takeMode_eq_ok_iff, List.append_nil]
  constructor
  · rintro ⟨tag, _, rfl, mode, rfl, hi⟩
    exact ⟨tag, mode, rfl, (Except.ok.inj hi).symm⟩
  · rintro ⟨tag, mode, rfl, rfl⟩
    exact ⟨tag, _, rfl, mode, rfl, rfl⟩

theorem decodeRequest_eq_ok_iff {bs : List Byte} {i : Instr} :
    decodeRequest bs = .ok i ↔ ∃ mode msg, bs = packMode mode ++ packMsg msg ∧ i = .request msg mode := by
  unfold decodeRequest
  simp only [bind_eq_ok_iff, Prod.exists, takeMode_eq_ok_iff, takeMsg_eq_ok_iff]
  constructor
  · rintro ⟨mode, _, rfl, msg, rfl, hi⟩
    exact ⟨mode, msg, rfl, (Except.ok.inj hi).symm⟩
  · rintro ⟨mode, msg, rfl, rfl⟩
    exact ⟨mode, _, rfl, msg, rfl, rfl⟩

theorem packPresent_getLsbD (present : Byte) (h : present &&& 0xF8 = 0) :
    packPresent (present.getLsbD 0) (present.getLsbD 1) (present.getLsbD 2) = present := by
  revert present
  decide

theorem packPresent_bits (src dst typ : Bool) :
    packPresent src dst typ &&& 0xF8 = 0 ∧ (packPresent src dst typ).getLsbD 0 = src
      ∧ (packPresent src dst typ).getLsbD 1 = dst ∧ (packPresent src dst typ).getLsbD 2 = typ := by
  revert src dst typ
  decide

theorem decodeSend_eq_ok_iff {bs : List Byte} {i : Instr} :
    decodeSend bs = .ok i ↔
      ∃ msg src dst typ, bs = packPresent src.isSome dst.isSome typ.isSome
          :: (packIf Addr.bytes src ++ packIf Addr.bytes dst ++ packIf le16 typ ++ packMsg msg)
        ∧ i = .send msg src dst typ := by
  unfold decodeSend
  simp only [bind_eq_ok_iff, Prod.exists, takeByte_eq_ok_iff]
  constructor
  · rintro ⟨present, _, rfl, h⟩
    split_ifs at h with hsel
    simp only [bind_eq_ok_iff, Prod.exists, takeIf_eq_ok_iff takeAddr_eq_ok_iff,
      takeIf_eq_ok_iff takeU16_eq_ok_iff, takeMsg_eq_ok_iff] at h
    obtain ⟨src, _, ⟨hsrc, rfl⟩, dst, _, ⟨hdst, rfl⟩, typ, _, ⟨htyp, rfl⟩, msg, rfl, hi⟩ := h
    refine ⟨msg, src, dst, typ, ?_, (Except.ok.inj hi).symm⟩
    rw [hsrc, hdst, htyp, packPresent_getLsbD present hsel]
    simp only [List.append_assoc]
  · rintro ⟨msg, src, dst, typ, rfl, rfl⟩
    obtain ⟨hsel, hsrc, hdst, htyp⟩ := packPresent_bits src.isSome dst.isSome typ.isSome
    refine ⟨_, _, rfl, ?_⟩
    rw [if_pos hsel]
    simp only [bind_eq_ok_iff, Prod.exists, takeIf_eq_ok_iff takeAddr_eq_ok_iff,
      takeIf_eq_ok_iff takeU16_eq_ok_iff, takeMsg_eq_ok_iff]
    exact ⟨src, _, ⟨hsrc.symm, by simp only [List.append_assoc]⟩, dst, _, ⟨hdst.symm, rfl⟩, typ, _, ⟨htyp.symm, rfl⟩,
      msg, rfl, rfl⟩

theorem takeAddr_map_eq_ok_iff {f : Addr → Instr} {bs : List Byte} {i : Instr} :
    (atEnd (takeAddr bs)).map f = .ok i ↔ ∃ a, bs = a.bytes ∧ f a = i := by
  simp only [map_eq_ok_iff, atEnd_eq_ok_iff, takeAddr_eq_ok_iff, List.append_nil]

theorem takeByte_map_eq_ok_iff {f : Byte → Instr} {bs : List Byte} {i : Instr} :
    (atEnd (takeByte bs)).map f = .ok i ↔ ∃ b, bs = [b] ∧ f b = i := by
  simp only [map_eq_ok_iff, atEnd_eq_ok_iff, takeByte_eq_ok_iff]

theorem takeMsg_map_eq_ok_iff {f : InnerMessage → Instr} {bs : List Byte} {i : Instr} :
    (takeMsg bs).map f = .ok i ↔ ∃ m, bs = packMsg m ∧ f m = i := by
  simp only [map_eq_ok_iff, takeMsg_eq_ok_iff]

/-! ## The command port (R130) -/

/-- An opcode that is not assigned is ILLEGAL, whatever follows it (R333). -/
theorem decodeOpcode_of_unassigned {op : Byte} (h : op ∉ assignedOpcodes) (bs : List Byte) :
    decodeOpcode op bs = .ok (.illegal ⟨op, bs⟩) := by
  simp only [assignedOpcodes, List.mem_cons, List.not_mem_nil, or_false, not_or] at h
  simp only [decodeOpcode, h, if_false]

/-- A parser that answers one instruction whatever the word: the word is that instruction's. -/
theorem encode_of_ok_eq {i j : Instr} {p : Presented} (h : (.ok j : Except DecodeError Instr) = .ok i)
    (hj : j.wf = true ∧ encode j = some p) : i.wf = true ∧ encode i = some p :=
  Except.ok.inj h ▸ hj

/-- The command word of an assigned opcode is the encoding of what it decodes to, opcode by opcode. -/
theorem encode_of_decodeOpcode_assigned {op : Byte} {bs : List Byte} {i : Instr} (hop : op ∈ assignedOpcodes)
    (h : decodeOpcode op bs = .ok i) : i.wf = true ∧ encode i = some (.command (op :: bs)) := by
  simp only [assignedOpcodes, List.mem_cons, List.not_mem_nil, or_false] at hop
  rcases hop with rfl | rfl | rfl | rfl | rfl | rfl | rfl | rfl | rfl | rfl | rfl | rfl | rfl | rfl | rfl | rfl
    | rfl | rfl | rfl | rfl | rfl | rfl | rfl | rfl | rfl
  · exact encode_of_ok_eq (j := .escEnc bs) h ⟨rfl, rfl⟩
  · exact encode_of_ok_eq (j := .escDec bs) h ⟨rfl, rfl⟩
  · exact encode_of_ok_eq (j := .stuff bs) h ⟨rfl, rfl⟩
  · exact encode_of_ok_eq (j := .destuff bs) h ⟨rfl, rfl⟩
  · exact encode_of_ok_eq (j := .crc16 bs) h ⟨rfl, rfl⟩
  · exact encode_of_ok_eq (j := .crcAppend bs) h ⟨rfl, rfl⟩
  · exact encode_of_ok_eq (j := .crcCheck bs) h ⟨rfl, rfl⟩
  · exact encode_of_ok_eq (j := .outerParse bs) h ⟨rfl, rfl⟩
  · obtain ⟨src, dst, typ, payload, rfl, rfl⟩ := decodeOuterBuild_eq_ok_iff.mp h
    exact ⟨rfl, rfl⟩
  · obtain ⟨dst, rfl, rfl⟩ := takeAddr_map_eq_ok_iff.mp h
    exact ⟨rfl, rfl⟩
  · exact encode_of_ok_eq (j := .pppExtract bs) h ⟨rfl, rfl⟩
  · obtain ⟨protocol, body, rfl, rfl⟩ := decodePppBuild_eq_ok_iff.mp h
    exact ⟨rfl, rfl⟩
  · exact encode_of_ok_eq (j := .innerParse bs) h ⟨rfl, rfl⟩
  · obtain ⟨msg, rfl, rfl⟩ := takeMsg_map_eq_ok_iff.mp h
    exact ⟨rfl, rfl⟩
  · obtain ⟨to2, rfl, rfl⟩ := takeAddr_map_eq_ok_iff.mp h
    exact ⟨rfl, rfl⟩
  · obtain ⟨rfl, rfl⟩ := (noOperands_eq_ok_iff (i := .reset)).mp h
    exact ⟨rfl, rfl⟩
  · obtain ⟨addr, rfl, rfl⟩ := takeAddr_map_eq_ok_iff.mp h
    exact ⟨rfl, rfl⟩
  · obtain ⟨addr, rfl, rfl⟩ := takeAddr_map_eq_ok_iff.mp h
    exact ⟨rfl, rfl⟩
  · obtain ⟨rfl, rfl⟩ := (noOperands_eq_ok_iff (i := .tagalloc)).mp h
    exact ⟨rfl, rfl⟩
  · obtain ⟨tag, mode, rfl, rfl⟩ := decodeArm_eq_ok_iff.mp h
    exact ⟨rfl, rfl⟩
  · obtain ⟨msg, src, dst, typ, rfl, rfl⟩ := decodeSend_eq_ok_iff.mp h
    exact ⟨rfl, rfl⟩
  · obtain ⟨mode, msg, rfl, rfl⟩ := decodeRequest_eq_ok_iff.mp h
    exact ⟨rfl, rfl⟩
  · obtain ⟨rfl, rfl⟩ := (noOperands_eq_ok_iff (i := .abort)).mp h
    exact ⟨rfl, rfl⟩
  · obtain ⟨rfl, rfl⟩ := (noOperands_eq_ok_iff (i := .flush)).mp h
    exact ⟨rfl, rfl⟩
  · obtain ⟨reg, rfl, rfl⟩ := takeByte_map_eq_ok_iff.mp h
    exact ⟨rfl, rfl⟩

theorem encode_of_decodeCommand {w : List Byte} {i : Instr} (h : decodeCommand w = .ok i) :
    i.wf = true ∧ encode i = some (.command w) := by
  cases w with
  | nil => cases h
  | cons op bs =>
    by_cases hop : op ∈ assignedOpcodes
    · exact encode_of_decodeOpcode_assigned hop h
    · refine encode_of_ok_eq ((decodeOpcode_of_unassigned hop bs).symm.trans h) ⟨?_, rfl⟩
      simpa [Instr.wf] using hop

/-! ## The wire formats (R95, R100, R105, R110) -/

theorem encode_of_decodeSymbol {src : Addr} {w : List Byte} {i : Instr} (h : decodeSymbol src w = .ok i) :
    i.wf = true ∧ encode i = some (.unit (.symbol src w)) := by
  unfold decodeSymbol at h
  split at h
  · split_ifs at h with hb
    obtain rfl := Except.ok.inj h
    exact ⟨rfl, by rw [hb, encode]⟩
  · next b v =>
    split_ifs at h with hbv
    obtain rfl := Except.ok.inj h
    exact ⟨decide_eq_true hbv.2, by rw [hbv.1, encode]⟩
  · cases h

theorem encode_of_decodeOuterFrame {w : List Byte} {i : Instr} (h : decodeOuterFrame w = .ok i) :
    i.wf = true ∧ encode i = some (.unit (.outerFrame w)) := by
  unfold decodeOuterFrame at h
  split at h
  · next hd hok =>
    split_ifs at h with hlen
    obtain rfl := Except.ok.inj h
    exact ⟨decide_eq_true (payload_le_of_outerParse hok hlen), by rw [encode, outerUnit_of_outerParse hok hlen]⟩
  · cases h

theorem encode_of_decodePppFrame {src : Addr} {w : List Byte} {i : Instr} (h : decodePppFrame src w = .ok i) :
    i.wf = true ∧ encode i = some (.unit (.pppFrame src w)) := by
  unfold decodePppFrame at h
  split at h
  · next f hok =>
    obtain rfl := Except.ok.inj h
    exact ⟨rfl, by rw [encode, ← pppOpen_eq_ok_iff.mp hok]⟩
  · cases h

theorem encode_of_decodeInnerMessage {src : Addr} {w : List Byte} {i : Instr}
    (h : decodeInnerMessage src w = .ok i) : i.wf = true ∧ encode i = some (.unit (.innerMessage src w)) := by
  unfold decodeInnerMessage at h
  split at h
  · next m hok =>
    obtain rfl := Except.ok.inj h
    obtain ⟨hwf, hw⟩ := wf_and_innerUnit_of_innerParse hok
    exact ⟨hwf, by rw [encode, hw]⟩
  · cases h

theorem decodeOuterFrame_outerUnit {payload : List Byte} (h : payload.length ≤ maxPayload) (src dst : Addr)
    (typ : U16) : decodeOuterFrame (outerUnit src dst typ payload) = .ok (.fmtOuterFrame src dst typ payload) := by
  rw [decodeOuterFrame, outerParse_outerUnit h]
  dsimp only
  rw [if_pos ((toNat_outerUnit_length h).trans (outerUnit_length src dst typ payload).symm), outerUnit_payload]

theorem decodePppFrame_pppUnit (src : Addr) (protocol : U16) (body : List Byte) :
    decodePppFrame src (pppUnit protocol body) = .ok (.fmtPppFrame src protocol body) := by
  rw [decodePppFrame, (pppOpen_eq_ok_iff (x := ⟨protocol, body⟩)).mpr rfl]

theorem decodeInnerMessage_innerUnit {m : InnerMessage} (h : m.wf = true) (src : Addr) :
    decodeInnerMessage src (innerUnit m) = .ok (.fmtInnerMessage ⟨src, m⟩) := by
  rw [decodeInnerMessage, innerParse_innerUnit h]

theorem decodeSymbol_pair {v : Byte} (h : v ≠ flag) (src : Addr) :
    decodeSymbol src [esc, v] = .ok (.fmtEscapePair src v) := by
  simp [decodeSymbol, h]

/-! ## The statements -/

/-- Settles O60: port by port and format by format. -/
theorem encodeUndoesDecode : Obligations.EncodeUndoesDecode := by
  intro i p h
  match p with
  | .command w => exact encode_of_decodeCommand h
  | .rxByte b => exact encode_of_ok_eq (j := .rxByte b) h ⟨rfl, rfl⟩
  | .unit (.symbol src w) => exact encode_of_decodeSymbol h
  | .unit (.outerFrame w) => exact encode_of_decodeOuterFrame h
  | .unit (.pppFrame src w) => exact encode_of_decodePppFrame h
  | .unit (.innerMessage src w) => exact encode_of_decodeInnerMessage h

/-- Settles O59: a word of plain bytes decodes by computation, and each other kind of operand by its parser. -/
theorem decodeUndoesEncode : Obligations.DecodeUndoesEncode := by
  intro i p hwf h
  cases i
  case escEnc | escDec | stuff | destuff | crc16 | crcAppend | crcCheck | outerParse | outerFilter | pppExtract
      | innerParse | innerFilter | reset | setaddr | setaddr2 | tagalloc | abort | flush | rdreg | rxByte
      | fmtFlag =>
    obtain rfl := Option.some.inj h
    rfl
  case outerDeliver | pppRx | innerRx | dispatch | accStep | raise => cases h
  case outerBuild =>
    obtain rfl := Option.some.inj h
    exact decodeOuterBuild_eq_ok_iff.mpr ⟨_, _, _, _, rfl, rfl⟩
  case pppBuild =>
    obtain rfl := Option.some.inj h
    exact decodePppBuild_eq_ok_iff.mpr ⟨_, _, rfl, rfl⟩
  case innerBuild =>
    obtain rfl := Option.some.inj h
    exact takeMsg_map_eq_ok_iff.mpr ⟨_, rfl, rfl⟩
  case arm =>
    obtain rfl := Option.some.inj h
    exact decodeArm_eq_ok_iff.mpr ⟨_, _, rfl, rfl⟩
  case send =>
    obtain rfl := Option.some.inj h
    exact decodeSend_eq_ok_iff.mpr ⟨_, _, _, _, rfl, rfl⟩
  case request =>
    obtain rfl := Option.some.inj h
    exact decodeRequest_eq_ok_iff.mpr ⟨_, _, rfl, rfl⟩
  case illegal word =>
    obtain rfl := Option.some.inj h
    exact decodeOpcode_of_unassigned (by simpa [Instr.wf] using hwf) word.operands
  case fmtEscapePair src v =>
    obtain rfl := Option.some.inj h
    exact decodeSymbol_pair (of_decide_eq_true hwf) src
  case fmtOuterFrame src dst typ payload =>
    obtain rfl := Option.some.inj h
    exact decodeOuterFrame_outerUnit (of_decide_eq_true hwf) src dst typ
  case fmtPppFrame src protocol body =>
    obtain rfl := Option.some.inj h
    exact decodePppFrame_pppUnit src protocol body
  case fmtInnerMessage m =>
    obtain rfl := Option.some.inj h
    exact decodeInnerMessage_innerUnit hwf m.src

/-- Settles O58: each written-out word is the encoding of its instruction. -/
theorem writtenOutWordsDecode : Obligations.WrittenOutWordsDecode :=
  ⟨fun data => decodeUndoesEncode (.escEnc data) _ rfl rfl,
    decodeUndoesEncode (.setaddr ⟨0x01, 0x02, 0x03, 0x04, 0x05, 0x06⟩) _ rfl rfl,
    decodeUndoesEncode (.arm 0x0012 .multi) _ rfl (by decide),
    decodeUndoesEncode (.illegal ⟨0x4A, [0x00]⟩) _ (by decide) rfl,
    decodeUndoesEncode (.fmtEscapePair (Addr.fill 1) 0x5E) _ (by decide) rfl,
    decodeUndoesEncode (.fmtOuterFrame ⟨0x01, 0x02, 0x03, 0x04, 0x05, 0x06⟩ (Addr.fill 0xFF) 0x0002 []) _
      (by decide) (by decide)⟩

end Sys2Proof.Machine

/-! PROOF. The statements of spec/47_host_commands.md, of RAISE (R365) and of reset (R400): one equation per
command and outcome, and from them the statements. -/

namespace Sys2Proof.Machine
open Sys2Proof Sys2Proof.Spec

/-! ## RAISE, with every field written out (R365) -/

theorem causeKind_eq_errorRow (c : Cause) : causeKind c = (errorRow c).1 := by cases c <;> rfl

theorem esrBit_eq_esrBitOf (k : ErrKind) : esrBit k = esrBitOf k := by cases k <;> rfl

theorem esrWith_causeKind (esr : Byte) (e : Err) : esrWith esr (causeKind e.cause) = esr ||| errorBit e := by
  rw [esrWith, esrBit_eq_esrBitOf, causeKind_eq_errorRow, errorBit]

theorem raise_eq_raised (e : Err) (s : State) : raise e s = raised e s := by
  rw [raised, ← esrWith_causeKind]
  cases hp : s.pend.valid with
  | true => rw [raise_of_pending hp]; rfl
  | false => rw [raise_of_idle hp]; rfl

theorem exec_raise (e : Err) (s : State) : exec (.raise e) s = .next (raised e s) :=
  congrArg Host.Outcome.next (raise_eq_raised e s)

/-! ## The tags (R35, R325) -/

theorem tag_add_one (t : U15) : t + 1 = BitVec.ofNat 15 ((t.toNat + 1) % 0x8000) := by
  apply BitVec.eq_of_toNat_eq
  simp

theorem tag_toNat_le (t : U15) : (t.setWidth 16).toNat ≤ 0x7FFF := by
  have := t.isLt
  rw [BitVec.toNat_setWidth, Nat.mod_eq_of_lt (by omega)]
  omega

theorem tag_setWidth (t : U15) : (t.setWidth 16).setWidth 15 = t := by
  apply BitVec.eq_of_toNat_eq
  have := t.isLt
  simp only [BitVec.toNat_setWidth]
  omega

theorem allocTag_of_idle {s : State} (h : s.pend.valid = false) : allocTag s = s.tagctr := by
  simp [allocTag, h]

/-! ## One equation per command (R322 to R330) -/

section
variable {s : State}

theorem exec_setaddr (h : s.pend.valid = false) (a : Addr) :
    exec (.setaddr a) s = .next { s with localAddr := a, resp := some (.ok .none) } := by
  rw [exec, execSetaddr, unlessBusy_of_idle h]
  rfl

theorem exec_setaddr2 (h : s.pend.valid = false) (a : Addr) :
    exec (.setaddr2 a) s = .next { s with localAddr2 := a, resp := some (.ok .none) } := by
  rw [exec, execSetaddr2, unlessBusy_of_idle h]
  rfl

theorem exec_flush (h : s.pend.valid = false) :
    exec .flush s = .next { s with ob := [], rb := [], resp := some (.ok .none) } := by
  rw [exec, execFlush, unlessBusy_of_idle h]
  rfl

theorem exec_arm_of_le (h : s.pend.valid = false) {tag : U16} (htag : tag.toNat ≤ 0x7FFF) (mode : Mode) :
    exec (.arm tag mode) s = .next (respond (.ok .none) (openWait mode (tag.setWidth 15) s)) := by
  rw [exec, execArm, unlessBusy_of_idle h, if_neg (not_lt.mpr htag)]
  rfl

theorem exec_arm_of_lt (h : s.pend.valid = false) {tag : U16} (htag : 0x7FFF < tag.toNat) (mode : Mode) :
    exec (.arm tag mode) s = answered s (.err (errOf .tagRange 0)) := by
  rw [exec, execArm, unlessBusy_of_idle h, if_pos htag]
  rfl

/-- During a wait the five commands of R321 answer Busy. -/
theorem exec_of_refusedInWait {i : Instr} (hi : refusedInWait i = true) (h : s.pend.valid = true) :
    exec i s = .next (respond (.err (busyError s)) s) := by
  cases i
  case setaddr | setaddr2 | arm | request | flush =>
    simp only [exec, execSetaddr, execSetaddr2, execArm, execRequest, execFlush, unlessBusy_of_pending h]
  all_goals cases hi

theorem exec_tagalloc (s : State) :
    exec .tagalloc s = .next { s with tagctr := allocTag s + 1, resp := some (.ok (.tag (allocTag s))) } := rfl

theorem exec_abort_of_pending (h : s.pend.valid = true) :
    exec .abort s
      = .next (respond (.ok .none) (setAcc none [] (closeWait .idle (emit (.aborted s.pend.tag) s)))) :=
  congrArg (answer (.ok .none)) (if_pos h)

theorem exec_abort_of_idle (h : s.pend.valid = false) : exec .abort s = answered s (.ok .none) :=
  congrArg (answer (.ok .none)) (if_neg (by simp [h]))

theorem exec_rdreg (reg : Byte) (s : State) : exec (.rdreg reg) s = answered s (readRegister reg s) := rfl

theorem exec_illegal (word : UnassignedWord) (s : State) :
    exec (.illegal word) s = failedWith s .badOpcode word.opcode.toNat := by
  rw [failedWith, ← errOf_byte]
  rfl

theorem exec_send_of_err {m : InnerMessage} {src dst : Option Addr} {typ : Option U16} {e : Err}
    (h : buildFrame s.cfg.smaProtocolId m (src.getD s.localAddr) (dst.getD bcast) (typ.getD s.cfg.otypePpp)
      = .err e) : exec (.send m src dst typ) s = answered s (.err e) := by
  rw [exec, execSend, h]
  rfl

theorem exec_send_of_ok {m : InnerMessage} {src dst : Option Addr} {typ : Option U16} {frame : List Byte}
    (h : buildFrame s.cfg.smaProtocolId m (src.getD s.localAddr) (dst.getD bcast) (typ.getD s.cfg.otypePpp)
      = .ok frame) : exec (.send m src dst typ) s = .next (respond (.ok .none) (transmit frame s)) := by
  rw [exec, execSend, h]
  rfl

/-- The message that REQUEST sends: its tag is the tag counter (R328). -/
def requestMsg (m : InnerMessage) (s : State) : InnerMessage := { m with tag := s.tagctr.setWidth 16 }

theorem exec_request_of_err {m : InnerMessage} {mode : Mode} {e : Err} (h : s.pend.valid = false)
    (hb : buildFrame s.cfg.smaProtocolId (requestMsg m s) s.localAddr bcast s.cfg.otypePpp = .err e) :
    exec (.request m mode) s = answered s (.err e) := by
  rw [requestMsg] at hb
  rw [exec, execRequest, unlessBusy_of_idle h, hb]
  rfl

theorem exec_request_of_ok {m : InnerMessage} {mode : Mode} {frame : List Byte} (h : s.pend.valid = false)
    (hb : buildFrame s.cfg.smaProtocolId (requestMsg m s) s.localAddr bcast s.cfg.otypePpp = .ok frame) :
    exec (.request m mode) s = .next (respond (.ok (.tag s.tagctr))
      (transmit frame (openWait mode s.tagctr { s with tagctr := s.tagctr + 1 }))) := by
  rw [requestMsg] at hb
  rw [exec, execRequest, unlessBusy_of_idle h, hb]
  rfl

end

/-! ## The transmit path (R327, R67) -/

section
variable (protocol : U16) (src dst : Addr) (typ : U16)

/-- The outer frame of a message with these addresses: PPP_BUILD, then the layout of R100. -/
def messageFrame (m : InnerMessage) : List Byte := outerUnit src dst typ (pppBuild protocol (innerUnit m))

/-- How long the outer frame of a message is: one more byte for each reserved one (R67). -/
theorem messageFrame_length (m : InnerMessage) :
    (messageFrame protocol src dst typ m).length
      = 62 + m.extra.length + (pppUnit protocol (innerUnit m)).countP reserved := by
  rw [messageFrame, outerUnit_length, pppBuild, stuff_length, pppUnit_length, innerUnit_length]
  omega

theorem buildFrame_of_err {m : InnerMessage} {e : Err} (h : innerBuild m = .err e) :
    buildFrame protocol m src dst typ = .err e := by
  rw [buildFrame, h, andThen_err]

theorem buildFrame_of_fits {m : InnerMessage} (hwf : m.wf = true)
    (h : (messageFrame protocol src dst typ m).length ≤ 0x70) :
    buildFrame protocol m src dst typ = .ok (messageFrame protocol src dst typ m) := by
  rw [messageFrame, outerUnit_length] at h
  rw [buildFrame, innerBuild_of_wf hwf, andThen_ok, outerBuild_of_le (by rw [maxPayload]; omega), messageFrame]

theorem buildFrame_of_long {m : InnerMessage} (hwf : m.wf = true)
    (h : 0x70 < (messageFrame protocol src dst typ m).length) :
    buildFrame protocol m src dst typ
      = .err (errOf .outTooLong (messageFrame protocol src dst typ m).length) := by
  rw [messageFrame, outerUnit_length] at h ⊢
  rw [buildFrame, innerBuild_of_wf hwf, andThen_ok, outerBuild_of_lt (by rw [maxPayload]; omega)]

/-- The length of the frame of a well-formed message is an `info` value that needs no saturation. -/
theorem messageFrame_length_le {m : InnerMessage} (hwf : m.wf = true) :
    (messageFrame protocol src dst typ m).length ≤ 0xFFFF := by
  obtain ⟨-, h984, -, -⟩ := (wf_iff m).mp hwf
  have hcount : (pppUnit protocol (innerUnit m)).countP reserved ≤ _ := List.countP_le_length
  rw [pppUnit_length, innerUnit_length] at hcount
  rw [messageFrame_length]
  omega

end

/-- Among tags of 15 bits the tag plays no part in whether a message is well formed. -/
theorem wf_with_tag {m : InnerMessage} {t : U16} (ht : t.toNat ≤ 0x7FFF)
    (h : ({ m with tag := 0 } : InnerMessage).wf = true) : ({ m with tag := t } : InnerMessage).wf = true := by
  obtain ⟨h4, h984, -, hbit⟩ := (wf_iff _).mp h
  exact (wf_iff _).mpr ⟨h4, h984, ht, hbit⟩

/-- Among tags of 15 bits the tag plays no part in the error of INNER_BUILD. -/
theorem innerBuild_err_with_tag {m : InnerMessage} {t : U16} {e : Err} (ht : t.toNat ≤ 0x7FFF)
    (h : innerBuild { m with tag := 0 } = .err e) : innerBuild { m with tag := t } = .err e := by
  by_cases h4 : m.extra.length % 4 = 0
  · by_cases h984 : m.extra.length ≤ 984
    · rw [innerBuild_of_fits (m := { m with tag := 0 }) h4 h984, if_neg (by simp)] at h
      rw [innerBuild_of_fits (m := { m with tag := t }) h4 h984, if_neg (not_lt.mpr ht)]
      split_ifs at h ⊢
      exact h
    · rw [innerBuild_of_long (m := { m with tag := 0 }) h4 (not_le.mp h984)] at h
      rwa [innerBuild_of_long (m := { m with tag := t }) h4 (not_le.mp h984)]
  · rw [innerBuild_of_misaligned (m := { m with tag := 0 }) h4] at h
    rwa [innerBuild_of_misaligned (m := { m with tag := t }) h4]

/-! ## The registers (R331) -/

theorem pendWord_eq (p : Pend) :
    pendWord p = (if p.valid then 0x10000 else 0) + (if p.mode = .multi then 0x8000 else 0) + p.tag.toNat := by
  obtain ⟨valid, mode, tag⟩ := p
  have hor : ∀ k, 2 ^ 15 * k ||| tag.toNat = 2 ^ 15 * k + tag.toNat :=
    fun k => (Nat.two_pow_add_eq_or_of_lt tag.isLt k).symm
  cases valid <;> cases mode
  · simp [pendWord, modeCode]
  · simpa [pendWord, modeCode] using hor 1
  · simpa [pendWord, modeCode] using hor 2
  · simpa [pendWord, modeCode] using hor 3

theorem expectedWord_some (e : U17) : expectedWord (some e) = 0x20000 + e.toNat :=
  (Nat.two_pow_add_eq_or_of_lt e.isLt 1).symm

theorem readRegister_of_gt {reg : Byte} (h : 9 < reg.toNat) (s : State) :
    readRegister reg s = .err (errOf .badReg reg.toNat) := by
  unfold readRegister
  split
  case h_11 => rfl
  all_goals omega

/-! ## The statements -/

/-- Settles O21. -/
theorem resetGivesEveryFieldItsResetValue : Obligations.ResetGivesEveryFieldItsResetValue := by
  intro s rest
  refine ⟨rfl, fun h => ?_⟩
  rw [step, h]
  rfl

/-- Settles O22. -/
theorem configurationCommandsWithNothingPending : Obligations.ConfigurationCommandsWithNothingPending :=
  fun a _ h => ⟨exec_setaddr h a, exec_setaddr2 h a, exec_flush h⟩

/-- Settles O23: the tag handed out is `allocTag`. -/
theorem tagallocSkipsThePendingTag : Obligations.TagallocSkipsThePendingTag := by
  intro s
  refine ⟨allocTag s, ?_, fun hp => ?_, fun hfree => if_neg hfree, fun hp heq => ?_⟩
  · rw [exec_tagalloc, tag_add_one]
  · unfold allocTag
    split_ifs with h
    · rw [h.2]
      bv_omega
    · exact fun heq => h ⟨hp, heq⟩
  · rw [allocTag, if_pos ⟨hp, heq⟩, tag_add_one]
    simp

/-- Settles O24. -/
theorem armOpensAWait : Obligations.ArmOpensAWait := by
  intro tag mode s h
  refine ⟨fun htag => ?_, fun htag => exec_arm_of_lt h htag mode⟩
  rw [exec_arm_of_le h htag, BitVec.ofNat_toNat]
  rfl

/-- Settles O25. -/
theorem sendAppendsOneOuterFrame : Obligations.SendAppendsOneOuterFrame := by
  rintro m src dst typ s frame e rfl
  refine ⟨fun hwf hfits => exec_send_of_ok (buildFrame_of_fits _ _ _ _ hwf hfits), fun hwf hlong => ?_,
    fun herr => exec_send_of_err (buildFrame_of_err _ _ _ _ herr)⟩
  rw [exec_send_of_err (buildFrame_of_long _ _ _ _ hwf hlong)]
  exact answered_err_of_le s .outTooLong (messageFrame_length_le _ _ _ _ hwf)

/-- Settles O26: the frame has 62 bytes besides the extra and one more for each reserved byte. -/
theorem sendFitsWithinFiftyBytes : Obligations.SendFitsWithinFiftyBytes := by
  intro m s t hwf hsend
  have hlen := messageFrame_length s.cfg.smaProtocolId s.localAddr bcast s.cfg.otypePpp m
  by_cases hfits : (messageFrame s.cfg.smaProtocolId s.localAddr bcast s.cfg.otypePpp m).length ≤ 0x70
  · rw [exec_send_of_ok (buildFrame_of_fits _ _ _ _ hwf hfits)] at hsend
    obtain rfl := Host.Outcome.next.inj hsend
    exact iff_of_true rfl (by omega)
  · rw [exec_send_of_err (buildFrame_of_long _ _ _ _ hwf (not_le.mp hfits))] at hsend
    obtain rfl := Host.Outcome.next.inj hsend
    exact iff_of_false (by simp) (by omega)

/-- Settles O27. -/
theorem requestArmsAndSends : Obligations.RequestArmsAndSends := by
  rintro m mode s frame e h rfl
  have htag := tag_toNat_le s.tagctr
  rw [BitVec.ofNat_toNat]
  refine ⟨fun hwf hfits => ?_, fun hwf hlong => ?_, fun herr => ?_⟩
  · rw [← tag_add_one]
    exact exec_request_of_ok h (buildFrame_of_fits _ _ _ _ (wf_with_tag htag hwf) hfits)
  · rw [exec_request_of_err h (buildFrame_of_long _ _ _ _ (wf_with_tag htag hwf) hlong)]
    exact answered_err_of_le s .outTooLong (messageFrame_length_le _ _ _ _ (wf_with_tag htag hwf))
  · exact exec_request_of_err h (buildFrame_of_err _ _ _ _ (innerBuild_err_with_tag htag herr))

/-- Settles O28: the three commands one after the other, from a state with nothing pending. -/
theorem requestIsTagallocArmSend : Obligations.RequestIsTagallocArmSend := by
  intro m mode s t tag hreq hresp
  cases hp : s.pend.valid with
  | true =>
    rw [exec_of_refusedInWait rfl hp] at hreq
    obtain rfl := Host.Outcome.next.inj hreq
    simp at hresp
  | false =>
    cases hframe : buildFrame s.cfg.smaProtocolId (requestMsg m s) s.localAddr bcast s.cfg.otypePpp with
    | err e =>
      rw [exec_request_of_err hp hframe] at hreq
      obtain rfl := Host.Outcome.next.inj hreq
      simp at hresp
    | ok frame =>
      rw [exec_request_of_ok hp hframe] at hreq
      obtain rfl := Host.Outcome.next.inj hreq
      obtain rfl : s.tagctr = tag := by simpa using hresp
      have halloc := exec_tagalloc s
      rw [allocTag_of_idle hp] at halloc
      have harm := exec_arm_of_le (s := respond (.ok (.tag s.tagctr)) { s with tagctr := s.tagctr + 1 }) hp
        (tag_toNat_le s.tagctr) mode
      rw [tag_setWidth] at harm
      exact ⟨_, _, _, halloc, rfl, harm, exec_send_of_ok (src := none) (dst := none) (typ := none) hframe, rfl⟩

/-- Settles O29. -/
theorem abortEndsTheWait : Obligations.AbortEndsTheWait :=
  fun _ => ⟨exec_abort_of_pending, exec_abort_of_idle⟩

/-- Settles O30. -/
theorem rdregReadsTheTenRegisters : Obligations.RdregReadsTheTenRegisters := by
  intro s reg
  refine ⟨rfl, rfl, rfl, ?_, ?_, ?_, rfl, rfl, rfl, rfl, fun h => ?_⟩
  · rw [← pendWord_eq]
    rfl
  · rw [exec_rdreg]
    cases hc : s.cst <;> simp [readRegister, cstCode, hc]
  · rw [exec_rdreg]
    cases he : s.accExpected with
    | none => simp [readRegister, he, expectedWord]
    | some e => simp [readRegister, he, expectedWord_some]
  · rw [exec_rdreg, readRegister_of_gt h]
    exact answered_err_of_le s .badReg (by have := reg.isLt; omega)

/-- Settles O31. -/
theorem unassignedOpcodesAnswerBadOpcode : Obligations.UnassignedOpcodesAnswerBadOpcode := by
  intro op operands s rest hop
  refine ⟨exec_illegal _ s, fun hin => ?_⟩
  have hdecode : decode (.command (op :: operands)) = .ok (.illegal ⟨op, operands⟩) :=
    decodeOpcode_of_unassigned hop operands
  rw [step, hin]
  dsimp only
  rw [hdecode]
  exact exec_illegal _ _

/-- Settles O33. -/
theorem raiseReportsAndEndsTheWait : Obligations.RaiseReportsAndEndsTheWait := by
  intro e s c
  exact ⟨fun _ _ => exec_raise e s, by cases c <;> rfl⟩

end Sys2Proof.Machine

/-! PROOF. What an instruction can do, said once: a command by `CommandStep`, an instruction of the receive path
by `receive`, a unit of a wire format by `sendUnit`. From it that every instruction completes (R377, R425) and what
a refused command does (R321). -/

namespace Sys2Proof.Machine
open Sys2Proof Sys2Proof.Spec

/-! ## The causes a function can report (R362) -/

/-- The errors of a result have a cause among those of `P`. -/
def ErrsIn (P : Cause → Bool) {α : Type} (r : Result α) : Prop := ∀ e, r = .err e → P e.cause = true

/-- A cause that a pure function of the receive path reports: of kind FramingError, CrcError or ProtocolError. -/
def receiveCause (c : Cause) : Bool :=
  match causeKind c with
  | .framing | .crc | .protocol => true
  | _ => false

/-- Any cause but BUSY. -/
def notBusy (c : Cause) : Bool := decide (c ≠ .busy)

section
variable {P : Cause → Bool} {α β : Type}

@[simp] theorem errsIn_ok (v : α) : ErrsIn P (.ok v) := by
  intro e h
  cases h

@[simp] theorem errsIn_err {e : Err} : ErrsIn P (.err e : Result α) ↔ P e.cause = true :=
  ⟨fun h => h e rfl, fun h _ he => Result.err.inj he ▸ h⟩

theorem errsIn_mapOk {f : α → β} {r : Result α} (h : ErrsIn P r) : ErrsIn P (mapOk f r) :=
  fun e he => h e (mapOk_eq_err_iff.mp he)

theorem errsIn_andThen {r : Result α} {f : α → Result β} (hr : ErrsIn P r) (hf : ∀ a, ErrsIn P (f a)) :
    ErrsIn P (andThen r f) := by
  cases r with
  | ok a => exact hf a
  | err e => exact errsIn_err.mpr (errsIn_err.mp hr)

theorem errsIn_notBusy {r : Result α} (h : ErrsIn receiveCause r) : ErrsIn notBusy r := by
  intro e he
  refine decide_eq_true fun hbusy => ?_
  have := h e he
  rw [hbusy] at this
  cases this

end

theorem escDec_errsIn (body : List Byte) : ErrsIn receiveCause (escDec body) := by
  induction body using escDec.induct with
  | case1 => exact errsIn_ok _
  | case2 => exact errsIn_err.mpr rfl
  | case3 b hb => rw [escDec, if_neg hb]; exact errsIn_ok _
  | case4 v rest ih => rw [escDec_esc_cons]; exact errsIn_mapOk ih
  | case5 b v rest hb ih => rw [escDec_cons_of_ne_esc hb]; exact errsIn_mapOk ih

theorem destuff_errsIn (raw : List Byte) : ErrsIn receiveCause (destuff raw) := by
  cases raw with
  | nil => exact errsIn_err.mpr rfl
  | cons b rest =>
    rw [destuff]
    split_ifs
    · exact errsIn_err.mpr rfl
    · exact errsIn_err.mpr rfl
    · exact errsIn_err.mpr rfl
    · exact escDec_errsIn _

theorem crcCheck_errsIn (frame : List Byte) : ErrsIn receiveCause (crcCheck frame) := by
  rw [crcCheck]
  split_ifs
  · exact errsIn_err.mpr rfl
  · exact errsIn_err.mpr rfl
  · exact errsIn_ok _

theorem outerParse_errsIn (buf : List Byte) : ErrsIn receiveCause (outerParse buf) := by
  rw [outerParse]
  split_ifs
  case neg => exact errsIn_ok _
  all_goals exact errsIn_err.mpr rfl

theorem pppExtract_errsIn (raw : List Byte) : ErrsIn receiveCause (pppExtract raw) := by
  refine errsIn_andThen (destuff_errsIn raw) fun f => ?_
  rw [pppOpen]
  split_ifs
  · exact errsIn_err.mpr rfl
  · exact errsIn_err.mpr rfl
  · exact errsIn_err.mpr rfl
  · exact errsIn_ok _

theorem innerParse_errsIn (body : List Byte) : ErrsIn receiveCause (innerParse body) := by
  rw [innerParse]
  split_ifs
  · exact errsIn_err.mpr rfl
  · exact errsIn_err.mpr rfl
  · exact errsIn_ok _

theorem innerBuild_errsIn (m : InnerMessage) : ErrsIn notBusy (innerBuild m) := by
  rw [innerBuild]
  split_ifs
  case neg => exact errsIn_ok _
  all_goals exact errsIn_err.mpr rfl

theorem outerBuild_errsIn (src dst : Addr) (typ : U16) (payload : List Byte) :
    ErrsIn notBusy (outerBuild src dst typ payload) := by
  rw [outerBuild]
  split_ifs
  · exact errsIn_err.mpr rfl
  · exact errsIn_ok _

theorem buildFrame_errsIn (protocol : U16) (m : InnerMessage) (src dst : Addr) (typ : U16) :
    ErrsIn notBusy (buildFrame protocol m src dst typ) :=
  errsIn_andThen (innerBuild_errsIn m) fun _ => outerBuild_errsIn src dst typ _

theorem readRegister_errsIn (reg : Byte) (s : State) : ErrsIn notBusy (readRegister reg s) := by
  unfold readRegister
  split
  case h_11 => exact errsIn_err.mpr rfl
  all_goals exact errsIn_ok _

/-! ## What a command can do -/

/-- `CommandStep s i r u`: in state `s` the command `i` answers `r` and leaves the state `u` behind the response. -/
inductive CommandStep (s : State) : Instr → Response → State → Prop
  /-- a command that only answers -/
  | answers {i : Instr} {r : Response} (hi : refusedInWait i = false) (hr : ErrsIn notBusy r) : CommandStep s i r s
  /-- one of the five commands of R321 during a wait -/
  | busy {i : Instr} (hi : refusedInWait i = true) (hp : s.pend.valid = true) :
      CommandStep s i (.err (busyError s)) s
  /-- one of the five commands of R321 outside a wait, refused for another reason -/
  | refused {i : Instr} {e : Err} (hp : s.pend.valid = false) (he : notBusy e.cause = true) :
      CommandStep s i (.err e) s
  | reset : CommandStep s .reset (.ok .none) (resetBlock s)
  | setaddr (hp : s.pend.valid = false) (a : Addr) :
      CommandStep s (.setaddr a) (.ok .none) { s with localAddr := a }
  | setaddr2 (hp : s.pend.valid = false) (a : Addr) :
      CommandStep s (.setaddr2 a) (.ok .none) { s with localAddr2 := a }
  | tagalloc : CommandStep s .tagalloc (.ok (.tag (allocTag s))) { s with tagctr := allocTag s + 1 }
  | arm (hp : s.pend.valid = false) (tag : U16) (mode : Mode) :
      CommandStep s (.arm tag mode) (.ok .none) (openWait mode (tag.setWidth 15) s)
  | send (m : InnerMessage) (src dst : Option Addr) (typ : Option U16) (frame : List Byte) :
      CommandStep s (.send m src dst typ) (.ok .none) (transmit frame s)
  | request (hp : s.pend.valid = false) (m : InnerMessage) (mode : Mode) (frame : List Byte) :
      CommandStep s (.request m mode) (.ok (.tag s.tagctr))
        (transmit frame (openWait mode s.tagctr { s with tagctr := s.tagctr + 1 }))
  | abort (hp : s.pend.valid = true) :
      CommandStep s .abort (.ok .none) (setAcc none [] (closeWait .idle (emit (.aborted s.pend.tag) s)))
  | flush (hp : s.pend.valid = false) : CommandStep s .flush (.ok .none) { s with ob := [], rb := [] }

/-- Outside a wait each of the five commands of R321 has its effect or is refused for another reason. -/
theorem commandStep_of_idle {i : Instr} {s : State} (hi : refusedInWait i = true) (hp : s.pend.valid = false) :
    ∃ r u, CommandStep s i r u ∧ exec i s = .next (respond r u) := by
  cases i
  case setaddr a => exact ⟨_, _, .setaddr hp a, exec_setaddr hp a⟩
  case setaddr2 a => exact ⟨_, _, .setaddr2 hp a, exec_setaddr2 hp a⟩
  case flush => exact ⟨_, _, .flush hp, exec_flush hp⟩
  case arm tag mode =>
    by_cases htag : tag.toNat ≤ 0x7FFF
    · exact ⟨_, _, .arm hp tag mode, exec_arm_of_le hp htag mode⟩
    · exact ⟨_, _, .refused (e := errOf .tagRange 0) hp rfl, exec_arm_of_lt hp (not_le.mp htag) mode⟩
  case request m mode =>
    cases hb : buildFrame s.cfg.smaProtocolId (requestMsg m s) s.localAddr bcast s.cfg.otypePpp with
    | ok frame => exact ⟨_, _, .request hp m mode frame, exec_request_of_ok hp hb⟩
    | err e => exact ⟨_, _, .refused hp (buildFrame_errsIn _ _ _ _ _ e hb), exec_request_of_err hp hb⟩
  all_goals cases hi

/-- Every command completes, and does one of the things that `CommandStep` says. -/
theorem exec_command {i : Instr} (hi : isCommand i = true) (s : State) :
    ∃ r u, CommandStep s i r u ∧ exec i s = .next (respond r u) := by
  by_cases hw : refusedInWait i = true
  · cases hp : s.pend.valid with
    | true => exact ⟨_, _, .busy hw hp, exec_of_refusedInWait hw hp⟩
    | false => exact commandStep_of_idle hw hp
  cases i
  case escEnc data => exact ⟨_, _, .answers rfl (errsIn_ok _), rfl⟩
  case escDec body => exact ⟨_, _, .answers rfl (errsIn_mapOk (errsIn_notBusy (escDec_errsIn body))), rfl⟩
  case stuff frame => exact ⟨_, _, .answers rfl (errsIn_ok _), rfl⟩
  case destuff raw => exact ⟨_, _, .answers rfl (errsIn_mapOk (errsIn_notBusy (destuff_errsIn raw))), rfl⟩
  case crc16 data => exact ⟨_, _, .answers rfl (errsIn_ok _), rfl⟩
  case crcAppend data => exact ⟨_, _, .answers rfl (errsIn_ok _), rfl⟩
  case crcCheck frame => exact ⟨_, _, .answers rfl (errsIn_mapOk (errsIn_notBusy (crcCheck_errsIn frame))), rfl⟩
  case outerParse buf => exact ⟨_, _, .answers rfl (errsIn_mapOk (errsIn_notBusy (outerParse_errsIn buf))), rfl⟩
  case outerBuild src dst typ payload =>
    exact ⟨_, _, .answers rfl (errsIn_mapOk (outerBuild_errsIn src dst typ payload)), rfl⟩
  case outerFilter dst => exact ⟨_, _, .answers rfl (errsIn_ok _), rfl⟩
  case pppExtract raw => exact ⟨_, _, .answers rfl (errsIn_mapOk (errsIn_notBusy (pppExtract_errsIn raw))), rfl⟩
  case pppBuild protocol body => exact ⟨_, _, .answers rfl (errsIn_ok _), rfl⟩
  case innerParse body => exact ⟨_, _, .answers rfl (errsIn_mapOk (errsIn_notBusy (innerParse_errsIn body))), rfl⟩
  case innerBuild m => exact ⟨_, _, .answers rfl (errsIn_mapOk (innerBuild_errsIn m)), rfl⟩
  case innerFilter to2 => exact ⟨_, _, .answers rfl (errsIn_ok _), rfl⟩
  case reset => exact ⟨_, _, .reset, rfl⟩
  case tagalloc => exact ⟨_, _, .tagalloc, rfl⟩
  case send m src dst typ =>
    cases hb : buildFrame s.cfg.smaProtocolId m (src.getD s.localAddr) (dst.getD bcast) (typ.getD s.cfg.otypePpp) with
    | ok frame => exact ⟨_, _, .send m src dst typ frame, exec_send_of_ok hb⟩
    | err e => exact ⟨_, _, .answers rfl (errsIn_err.mpr (buildFrame_errsIn _ _ _ _ _ e hb)), exec_send_of_err hb⟩
  case abort =>
    cases hp : s.pend.valid with
    | true => exact ⟨_, _, .abort hp, exec_abort_of_pending hp⟩
    | false => exact ⟨_, _, .answers rfl (errsIn_ok _), exec_abort_of_idle hp⟩
  case rdreg reg => exact ⟨_, _, .answers rfl (readRegister_errsIn reg s), rfl⟩
  case illegal word => exact ⟨_, _, .answers rfl (errsIn_err.mpr rfl), rfl⟩
  case setaddr | setaddr2 | arm | request | flush => exact absurd rfl hw
  all_goals cases hi

/-! ## What the other instructions do -/

/-- The effect of RX_BYTE and its sub-steps. -/
def receive (i : Instr) (s : State) : State :=
  match i with
  | .rxByte b => rxByte b s
  | .outerDeliver frame => outerDeliver frame s
  | .pppRx src payload => pppRx src payload s
  | .innerRx protocol body => innerRx protocol body s
  | .dispatch m => dispatch m s
  | .accStep m => accStep m s
  | .raise e => raise e s
  | _ => s

theorem exec_receive {i : Instr} (hi : onReceivePath i = true) (s : State) : exec i s = .next (receive i s) := by
  cases i
  case rxByte | outerDeliver | pppRx | innerRx | dispatch | accStep | raise => rfl
  all_goals cases hi

theorem exec_unit {i : Instr} (hi : isUnit i = true) (s : State) : ∃ u, exec i s = .next (sendUnit u s) := by
  cases i
  case fmtEscapePair | fmtFlag | fmtOuterFrame | fmtPppFrame | fmtInnerMessage =>
    exact ⟨_, exec_of_unit rfl s⟩
  all_goals cases hi

/-- Everything an instruction can do. -/
theorem exec_cases {i : Instr} {s t : State} (h : exec i s = .next t) :
    (isCommand i = true ∧ ∃ r u, CommandStep s i r u ∧ t = respond r u)
    ∨ (isUnit i = true ∧ ∃ u, t = sendUnit u s)
    ∨ (onReceivePath i = true ∧ t = receive i s) := by
  cases hc : isCommand i with
  | true =>
    obtain ⟨r, u, hstep, hexec⟩ := exec_command hc s
    exact .inl ⟨rfl, r, u, hstep, Host.Outcome.next.inj (h.symm.trans hexec)⟩
  | false =>
    cases hu : isUnit i with
    | true =>
      obtain ⟨u, hexec⟩ := exec_unit hu s
      exact .inr (.inl ⟨rfl, u, Host.Outcome.next.inj (h.symm.trans hexec)⟩)
    | false =>
      have hi : onReceivePath i = true := by rw [onReceivePath, hc, hu]; rfl
      exact .inr (.inr ⟨hi, Host.Outcome.next.inj (h.symm.trans (exec_receive hi s))⟩)

theorem isUnit_of_isCommand {i : Instr} (h : isCommand i = true) : isUnit i = false := by
  cases i
  case fmtEscapePair | fmtFlag | fmtOuterFrame | fmtPppFrame | fmtInnerMessage => cases h
  all_goals rfl

@[simp] theorem receive_resp (i : Instr) (s : State) : (receive i s).resp = s.resp := by
  cases i <;> simp [receive]

/-! ## The statements -/

/-- Settles O32. -/
theorem refusedCommandsChangeNothing : Obligations.RefusedCommandsChangeNothing := by
  intro i s t hi hexec
  obtain ⟨r, u, hstep, hnext⟩ := exec_command hi s
  obtain rfl := Host.Outcome.next.inj (hexec.symm.trans hnext)
  refine ⟨fun e he => ?_, fun hw hp => ?_, fun e he hbusy => ?_⟩
  · obtain rfl : r = .err e := Option.some.inj he
    cases hstep <;> rfl
  · have hcode : busyError s = ⟨.busy, BitVec.ofNat 16 s.pend.tag.toNat⟩ :=
      errOf_of_le (by have := s.pend.tag.isLt; omega)
    rw [← hcode]
    exact Host.Outcome.next.inj (hnext.symm.trans (exec_of_refusedInWait hw hp))
  · obtain rfl : r = .err e := Option.some.inj he
    cases hstep with
    | answers _ hr => exact absurd hbusy (of_decide_eq_true (errsIn_err.mp hr))
    | busy hw hp => exact ⟨hw, hp⟩
    | refused _ hc => exact absurd hbusy (of_decide_eq_true hc)

/-- Settles O48. -/
theorem everyInstructionCompletes : Obligations.EveryInstructionCompletes := by
  intro i s
  cases hc : isCommand i with
  | true =>
    obtain ⟨r, u, -, hexec⟩ := exec_command hc s
    exact ⟨_, hexec, fun _ => rfl, nofun⟩
  | false =>
    cases hu : isUnit i with
    | true =>
      obtain ⟨u, hexec⟩ := exec_unit hu s
      exact ⟨_, hexec, nofun, fun _ => rfl⟩
    | false =>
      exact ⟨_, exec_receive (by rw [onReceivePath, hc, hu]; rfl) s, nofun, fun _ => receive_resp i s⟩

/-- Settles O53. -/
theorem stepRunsTheDecodedInstruction : Obligations.StepRunsTheDecodedInstruction := by
  intro s p i w u why n rest
  refine ⟨fun hin hdec _ => ?_, fun hin hdec => ?_, fun hin => ?_, fun hin => ?_, fun hin => ?_, fun hin => ?_⟩
  · rw [step, hin]
    dsimp only
    rw [hdec]
    rfl
  · rw [step, hin]
    dsimp only
    rw [hdec]
    rfl
  · refine ⟨linkBytes s.cfg u, ?_, by rintro rfl; rfl⟩
    rw [step, hin]
    dsimp only
    cases hdec : decode (.unit u) with
    | ok j => exact exec_of_unit (encodeUndoesDecode j _ hdec).2 _
    | error e => rfl
  · rw [step, hin]
    rfl
  · rw [step, hin]
    rfl
  · rw [step, hin]

end Sys2Proof.Machine

/-! PROOF. The statements about the receive path, from RX_BYTE down to ACC_STEP: one equation per function and
outcome, and the reassembly of a frame byte by byte (R190, R193, R217, R219, R247, R276, R302). -/

namespace Sys2Proof.Machine
open Sys2Proof Sys2Proof.Spec

/-! ## RX_BYTE (R190) -/

theorem rxByte_of_bad_header {b : Byte} {s : State} {e : Err} (hlen : (s.ob ++ [b]).length = 18)
    (he : outerParse (s.ob ++ [b]) = .err e) : rxByte b s = raise e (setOb [] s) := by
  rcases rxByte_cases b s with ⟨e', -, he', hrx⟩ | ⟨hok, -⟩
  · rw [hrx, Result.err.inj (he'.symm.trans he)]
  · obtain ⟨hd, hd'⟩ := hok hlen
    cases he.symm.trans hd'

theorem rxByte_of_good_header {b : Byte} {s : State}
    (hok : (s.ob ++ [b]).length = 18 → ∃ hd, outerParse (s.ob ++ [b]) = .ok hd) :
    rxByte b s = rxComplete (setOb (s.ob ++ [b]) s) := by
  rcases rxByte_cases b s with ⟨e, hlen, he, -⟩ | ⟨-, hrx⟩
  · obtain ⟨hd, hd'⟩ := hok hlen
    cases he.symm.trans hd'
  · exact hrx

theorem rxByte_waits {b : Byte} {s : State}
    (hok : (s.ob ++ [b]).length = 18 → ∃ hd, outerParse (s.ob ++ [b]) = .ok hd)
    (h : 18 ≤ (s.ob ++ [b]).length → (s.ob ++ [b]).length ≠ (byteAt (s.ob ++ [b]) 1).toNat) :
    rxByte b s = setOb (s.ob ++ [b]) s := by
  rw [rxByte_of_good_header hok]
  exact rxComplete_waits fun hc => h hc.1 hc.2

theorem rxByte_delivers {b : Byte} {s : State}
    (hok : (s.ob ++ [b]).length = 18 → ∃ hd, outerParse (s.ob ++ [b]) = .ok hd)
    (h18 : 18 ≤ (s.ob ++ [b]).length) (hlen : (s.ob ++ [b]).length = (byteAt (s.ob ++ [b]) 1).toNat) :
    rxByte b s = outerDeliver (s.ob ++ [b]) (setOb [] s) := by
  rw [rxByte_of_good_header hok]
  exact rxComplete_delivers ⟨h18, hlen⟩

/-! ## OUTER_DELIVER (R193) -/

theorem isCarrier_iff (cfg : Config) (typ : U16) :
    isCarrier cfg typ = true ↔ typ = cfg.otypePpp ∨ typ = cfg.otypePpp2 := by
  simp [isCarrier]

section
variable {frame : List Byte} {s : State}

theorem outerDeliver_of_filtered (h : ¬ outerFilter s.localAddr (addrAt frame 10) = true) :
    outerDeliver frame s = s := if_pos (by simpa using h)

theorem outerDeliver_of_carrier (h : outerFilter s.localAddr (addrAt frame 10) = true)
    (hc : isCarrier s.cfg (read16 frame 16) = true) :
    outerDeliver frame s = pppRx (addrAt frame 4) (frame.drop outerHlen) s :=
  (if_neg (by simp [h])).trans (if_pos hc)

theorem outerDeliver_of_other (h : outerFilter s.localAddr (addrAt frame 10) = true)
    (hc : ¬ isCarrier s.cfg (read16 frame 16) = true) :
    outerDeliver frame s
      = emit (.outer (addrAt frame 4) (addrAt frame 10) (read16 frame 16) (frame.drop outerHlen)) s :=
  (if_neg (by simp [h])).trans (if_neg hc)

end

/-! ## The reassembly table (R30, R217) -/

theorem rbSet_rbGet {rb : List (Addr × List Byte)} (h : rbWf rb = true) (a : Addr) : rbSet rb a (rbGet rb a) = rb := by
  refine rb_ext (rbSet_wf h a _) h fun c => ?_
  by_cases hc : c = a
  · rw [hc, rbGet_rbSet_same h]
  · rw [rbGet_rbSet_other rb _ hc]

theorem rbInsert_length {rb : List (Addr × List Byte)} (h : rbWf rb = true) (a : Addr) (buf : List Byte) :
    (rbInsert rb a buf).length = rb.length + if rbGet rb a = [] then 1 else 0 := by
  induction rb with
  | nil => rfl
  | cons p rest ih =>
    obtain ⟨k, old⟩ := p
    obtain ⟨hold, hlt, hw⟩ := (rbWf_cons k old rest).mp h
    by_cases hk : k = a
    · simp [rbInsert, rbGet, hk, hold]
    by_cases hak : addrKey a < addrKey k
    · have hnone : rbGet rest a = [] := rbGet_eq_nil_of_forall_ne fun q hq hqa => by
        have := hlt q hq
        rw [hqa] at this
        omega
      simp [rbInsert, rbGet, hk, hak, hnone]
    · simp only [rbInsert, rbGet, hk, hak, if_false, List.length_cons, ih hw]
      omega

theorem rbErase_length {rb : List (Addr × List Byte)} (h : rbWf rb = true) (a : Addr) :
    (rbErase rb a).length + (if rbGet rb a = [] then 0 else 1) = rb.length := by
  induction rb with
  | nil => rfl
  | cons p rest ih =>
    obtain ⟨k, old⟩ := p
    obtain ⟨hold, -, hw⟩ := (rbWf_cons k old rest).mp h
    by_cases hk : k = a
    · simp [rbErase, rbGet, hk, hold]
    · have := ih hw
      simp only [rbErase, rbGet, hk, if_false, List.length_cons]
      omega

section
variable {src : Addr} {s : State}

theorem setRb_rbGet (h : rbWf s.rb = true) : setRb src (rbGet s.rb src) s = s := by
  rw [setRb_eq, rbSet_rbGet h]

theorem setRb_wf (h : rbWf s.rb = true) (buf : List Byte) : rbWf (setRb src buf s).rb = true := by
  rw [setRb_rb]
  exact rbSet_wf h src buf

theorem setRb_rbGet_same (h : rbWf s.rb = true) (buf : List Byte) : rbGet (setRb src buf s).rb src = buf := by
  rw [setRb_rb]
  exact rbGet_rbSet_same h src buf

theorem setRb_setRb (h : rbWf s.rb = true) {x : List Byte} (hx : x ≠ []) (y : List Byte) :
    setRb src y (setRb src x s) = setRb src y s := by
  obtain ⟨b, bs, rfl⟩ := List.exists_cons_of_ne_nil hx
  rw [setRb_eq, setRb_rb, rbSet_rbSet h]
  rfl

theorem fills_iff (n : Nat) (cap : Option Nat) : fills n cap = true ↔ cap = some n := by
  cases cap <;> simp [fills, eq_comm]

theorem exceeds_eq_false_iff (n : Nat) (cap : Option Nat) : exceeds n cap = false ↔ ∀ c, cap = some c → n ≤ c := by
  cases cap <;> simp [exceeds]

theorem fitsBuffer_iff (n : Nat) : fitsBuffer n s ↔ exceeds n s.cfg.pppBufMax = false :=
  (exceeds_eq_false_iff n _).symm

theorem noRoomFor_eq_true_iff : noRoomFor src s = true ↔ rbGet s.rb src = [] ∧ s.cfg.nSrc = some s.rb.length := by
  rw [noRoomFor, Bool.and_eq_true, List.isEmpty_iff, fills_iff]

theorem noRoomFor_eq_false_iff : noRoomFor src s = false ↔ hasRoom src s := by
  rw [← Bool.not_eq_true, noRoomFor_eq_true_iff, hasRoom, not_and_or]
  exact or_congr Iff.rfl ⟨fun h n hn hl => h (by rw [hn, hl]), fun h hn => h _ hn rfl⟩

/-! ## PPP_RX byte by byte (R217) -/

theorem pppRx_cons_of_room (h : hasRoom src s) (b : Byte) (rest : List Byte) :
    pppRx src (b :: rest) s = pppRx src rest (pppByte src b s) := by
  rw [pppRx, noRoomFor_eq_false_iff.mpr h]
  exact if_neg Bool.false_ne_true

theorem pppRx_cons_of_full (hbuf : rbGet s.rb src = []) (hfull : s.cfg.nSrc = some s.rb.length) (b : Byte)
    (rest : List Byte) : pppRx src (b :: rest) s = raise (errOf .srcTableFull 0) s :=
  if_pos (noRoomFor_eq_true_iff.mpr ⟨hbuf, hfull⟩)

/-- A flag into an empty buffer opens a frame. -/
theorem pppRx_opens (hbuf : rbGet s.rb src = []) (hroom : hasRoom src s) (hfits : fitsBuffer 1 s) (q : List Byte) :
    pppRx src (flag :: q) s = pppRx src q (setRb src [flag] s) := by
  rw [pppRx_cons_of_room hroom, pppByte_stores (.inr hbuf) (by rw [hbuf]; exact (fitsBuffer_iff 1).mp hfits), hbuf]
  rfl

/-- Bytes without a flag join a buffer that holds something, as long as they fit. -/
theorem pppRx_stores (hwf : rbWf s.rb = true) (hbuf : rbGet s.rb src ≠ []) {p : List Byte} (hp : flag ∉ p)
    (hfits : fitsBuffer ((rbGet s.rb src).length + p.length) s) (q : List Byte) :
    pppRx src (p ++ q) s = pppRx src q (setRb src (rbGet s.rb src ++ p) s) := by
  induction p generalizing s with
  | nil => rw [List.append_nil, setRb_rbGet hwf, List.nil_append]
  | cons b p ih =>
    rw [List.mem_cons, not_or] at hp
    have hfits' : fitsBuffer ((rbGet s.rb src).length + 1) s := fun c hc =>
      le_trans (by rw [List.length_cons]; omega) (hfits c hc)
    have hget : rbGet (setRb src (rbGet s.rb src ++ [b]) s).rb src = rbGet s.rb src ++ [b] :=
      setRb_rbGet_same hwf _
    rw [List.cons_append, pppRx_cons_of_room (.inl hbuf),
      pppByte_stores (.inl (Ne.symm hp.1)) ((fitsBuffer_iff _).mp hfits'),
      ih (setRb_wf hwf _) (by rw [hget]; simp) hp.2 ?_, hget, setRb_setRb hwf (by simp), List.append_assoc]
    · rfl
    · rw [hget]
      intro c hc
      have := hfits c hc
      simp only [List.length_append, List.length_cons, List.length_nil] at this ⊢
      omega

/-- A flag ends what a buffer holds. -/
theorem pppRx_ends (hbuf : rbGet s.rb src ≠ []) :
    pppRx src [flag] s = pppDeliver (pppExtract (rbGet s.rb src ++ [flag])) (setRb src [] s) := by
  rw [pppRx_cons_of_room (.inl hbuf), pppByte_ends hbuf, pppRx]

/-- A whole frame into an empty buffer is extracted, whatever is between its flags. -/
theorem pppRx_whole_frame (hwf : rbWf s.rb = true) (hbuf : rbGet s.rb src = []) (hroom : hasRoom src s)
    {body : List Byte} (hbody : flag ∉ body) (hfits : fitsBuffer (body.length + 1) s) :
    pppRx src (flag :: (body ++ [flag])) s
      = pppDeliver (pppExtract (flag :: (body ++ [flag]))) (setRb src [] s) := by
  have hget : rbGet (setRb src [flag] s).rb src = [flag] := setRb_rbGet_same hwf _
  have hget' : rbGet (setRb src ([flag] ++ body) s).rb src = [flag] ++ body := setRb_rbGet_same hwf _
  rw [pppRx_opens hbuf hroom (fun c hc => le_trans (by omega) (hfits c hc)),
    pppRx_stores (setRb_wf hwf _) (by rw [hget]; simp) hbody
      (by rw [hget]; exact fun c hc => le_trans (by simp; omega) (hfits c hc)),
    hget, setRb_setRb hwf (by simp), pppRx_ends (by rw [hget']; simp), hget', setRb_setRb hwf (by simp)]
  rfl

theorem pppDeliver_eq_extracted (raw : List Byte) :
    pppDeliver (pppExtract raw) (setRb src [] s) = extracted src raw s := by
  unfold extracted
  cases pppExtract raw with
  | ok f => rfl
  | err e => exact raise_eq_raised e _

end

/-- With an unbounded table the bytes of a payload are taken one after the other. -/
theorem pppRx_append_of_unbounded {s : State} (h : s.cfg.nSrc = none) (src : Addr) (p q : List Byte) :
    pppRx src (p ++ q) s = pppRx src q (pppRx src p s) := by
  induction p generalizing s with
  | nil => rfl
  | cons b p ih =>
    have hroom : hasRoom src s := .inr (by simp [h])
    rw [List.cons_append, pppRx_cons_of_room hroom, pppRx_cons_of_room hroom, ih (by rw [pppByte_cfg, h])]

/-! ## INNER_RX (R247) -/

section
variable {protocol : U16} {body : List Byte} {m : InnerMessage} {s : State}

theorem innerRx_of_wrong_protocol (h : protocol ≠ s.cfg.smaProtocolId) :
    innerRx protocol body s = raise ⟨.wrongProtocol, protocol⟩ s := by
  rw [innerRx, if_pos h, errOf_toNat]

theorem innerRx_of_err (h : protocol = s.cfg.smaProtocolId) {e : Err} (he : innerParse body = .err e) :
    innerRx protocol body s = raise e s := by
  rw [innerRx, if_neg (not_not.mpr h), he]

theorem innerRx_of_ok (h : protocol = s.cfg.smaProtocolId) (hm : innerParse body = .ok m) :
    innerRx protocol body s = if innerFilter s.localAddr2 s.cfg.bcast2 m.to2 then dispatch m s else s := by
  rw [innerRx, if_neg (not_not.mpr h), hm]

theorem innerRx_of_accepted (h : protocol = s.cfg.smaProtocolId) (hm : innerParse body = .ok m)
    (hto : m.to2 = s.localAddr2 ∨ m.to2 = s.cfg.bcast2) : innerRx protocol body s = dispatch m s := by
  rw [innerRx_of_ok h hm, if_pos ((innerFilter_iff _ _ _).mpr hto)]

theorem innerRx_of_filtered (h : protocol = s.cfg.smaProtocolId) (hm : innerParse body = .ok m)
    (h2 : m.to2 ≠ s.localAddr2) (hb : m.to2 ≠ s.cfg.bcast2) : innerRx protocol body s = s := by
  rw [innerRx_of_ok h hm, if_neg (by rw [innerFilter_iff, not_or]; exact ⟨h2, hb⟩)]

/-! ## DISPATCH (R276) -/

theorem matchesPending_iff : matchesPending m s = true ↔ matching m s := by
  have htag : m.tag = s.pend.tag.setWidth 16 ↔ m.tag.toNat = s.pend.tag.toNat := by
    rw [← BitVec.toNat_inj, BitVec.toNat_setWidth, Nat.mod_eq_of_lt (by have := s.pend.tag.isLt; omega)]
  simp only [matchesPending, matching, Bool.and_eq_true, decide_eq_true_eq, htag, and_assoc]

theorem dispatch_of_no_match (h : ¬ matching m s) : dispatch m s = s :=
  if_pos (by rw [← matchesPending_iff] at h; simpa using h)

theorem dispatch_of_match (h : matching m s) :
    dispatch m s =
      if m.error ≠ 0 then raise (errOf .device m.error.toNat) s
      else if s.pend.mode = .single then closeWait .complete (emit (.resultSingle m) s) else accStep m s := by
  rw [dispatch, if_neg (by simp [matchesPending_iff.mpr h])]
  cases s.pend.mode <;> rfl

theorem dispatch_of_multi (h : matching m s) (he : m.error = 0) (hm : s.pend.mode = .multi) :
    dispatch m s = accStep m s := by
  rw [dispatch_of_match h, if_neg (not_not.mpr he), if_neg (by rw [hm]; simp)]

/-! ## ACC_STEP (R302) -/

/-- Reading a packet count as a 17-bit count of packets does not overflow (D27). -/
theorem toNat_pktcount_add_one (v : U16) : (v.setWidth 17 + 1).toNat = v.toNat + 1 := by
  have := v.isLt
  rw [BitVec.toNat_add, BitVec.toNat_setWidth]
  simp
  omega

theorem pktcount_add_one (v : U16) : v.setWidth 17 + 1 = BitVec.ofNat 17 (v.toNat + 1) := by
  rw [← toNat_pktcount_add_one, BitVec.ofNat_toNat, BitVec.setWidth_eq]

/-- A message that has been collected as one of `e`; ACC_STEP leaves it at that or ends the wait. -/
def collected (e : U17) (msgs : List InnerMessage) (c : Cst) (s : State) : State :=
  { setAcc (some e) msgs s with cst := c }

theorem accStep_collects_first (hx : s.accExpected = none) (hf : m.first = true)
    (hcap : exceeds (m.pktcount.toNat + 1) s.cfg.accMaxPkts = false) :
    accStep m s
      = accFinish m (m.pktcount.setWidth 17 + 1) (collected (m.pktcount.setWidth 17 + 1) [m] .accumulating s) := by
  rcases accStep_first (m := m) hx with ⟨hf', -⟩ | ⟨-, hcap', -⟩ | ⟨-, -, h⟩
  · rw [hf] at hf'
    cases hf'
  · rw [hcap] at hcap'
    cases hcap'
  · exact h

theorem accStep_collects_next {e : U17} (hx : s.accExpected = some e)
    (hcount : m.pktcount.toNat + s.accCollected.length + 1 = e.toNat) :
    accStep m s = accFinish m e (collected e (s.accCollected ++ [m]) s.cst s) := by
  rcases accStep_next (m := m) hx with ⟨hne, -⟩ | ⟨-, h⟩
  · exact absurd hcount hne
  · exact h

theorem accFinish_of_more (h : m.pktcount.toNat ≠ 0) (e : U17) (s : State) : accFinish m e s = s :=
  if_neg (fun h0 => h (by rw [h0]; rfl))

theorem accFinish_of_last (h : m.pktcount.toNat = 0) {e : U17} (hlen : s.accCollected.length = e.toNat) :
    accFinish m e s = setAcc none [] (closeWait .complete (emit (.resultMulti s.accCollected) s)) :=
  (if_pos (BitVec.eq_of_toNat_eq h)).trans (if_neg (not_not.mpr hlen))

end

/-! ## What PPP_RX does is the same whatever the other sources' buffers hold (R219) -/

/-- The same state with another reassembly table. -/
def withRb (rb : List (Addr × List Byte)) (s : State) : State := { s with rb := rb }

section
variable (rb : List (Addr × List Byte)) (s : State)

@[simp] theorem withRb_cfg : (withRb rb s).cfg = s.cfg := rfl
@[simp] theorem withRb_localAddr2 : (withRb rb s).localAddr2 = s.localAddr2 := rfl
@[simp] theorem withRb_pend : (withRb rb s).pend = s.pend := rfl
@[simp] theorem withRb_accExpected : (withRb rb s).accExpected = s.accExpected := rfl
@[simp] theorem withRb_accCollected : (withRb rb s).accCollected = s.accCollected := rfl
@[simp] theorem withRb_rb : (withRb rb s).rb = rb := rfl

theorem raise_withRb (e : Err) : raise e (withRb rb s) = withRb rb (raise e s) := by
  cases hp : s.pend.valid with
  | true => rw [raise_of_pending hp, raise_of_pending (s := withRb rb s) hp]; rfl
  | false => rw [raise_of_idle hp, raise_of_idle (s := withRb rb s) hp]; rfl

theorem accFinish_withRb (m : InnerMessage) (e : U17) :
    accFinish m e (withRb rb s) = withRb rb (accFinish m e s) := by
  simp only [accFinish, withRb_accCollected, raise_withRb]
  split_ifs <;> rfl

theorem accStep_withRb (m : InnerMessage) : accStep m (withRb rb s) = withRb rb (accStep m s) := by
  simp only [accStep, withRb_accExpected, withRb_accCollected, withRb_cfg, raise_withRb]
  split
  · split_ifs
    · rfl
    · rfl
    · exact accFinish_withRb rb (collected _ [m] .accumulating s) m _
  · split_ifs
    · rfl
    · exact accFinish_withRb rb (setAcc _ (s.accCollected ++ [m]) s) m _

theorem dispatch_withRb (m : InnerMessage) : dispatch m (withRb rb s) = withRb rb (dispatch m s) := by
  have hm : matchesPending m (withRb rb s) = matchesPending m s := rfl
  simp only [dispatch, hm, withRb_pend, raise_withRb, accStep_withRb]
  split_ifs
  · rfl
  · rfl
  · split <;> rfl

theorem innerRx_withRb (protocol : U16) (body : List Byte) :
    innerRx protocol body (withRb rb s) = withRb rb (innerRx protocol body s) := by
  simp only [innerRx, withRb_cfg, withRb_localAddr2, raise_withRb, dispatch_withRb]
  split_ifs
  · rfl
  · split
    · rfl
    · split_ifs <;> rfl

theorem pppDeliver_withRb (r : Result PppFrame) : pppDeliver r (withRb rb s) = withRb rb (pppDeliver r s) := by
  cases r with
  | err e => exact raise_withRb rb s e
  | ok f => exact innerRx_withRb rb s f.protocol f.body

end

/-- How many entries a table has after a write, from how many it had. -/
theorem rbSet_length {rb : List (Addr × List Byte)} (h : rbWf rb = true) (a : Addr) (buf : List Byte) :
    (rbSet rb a buf).length + (if rbGet rb a = [] then 0 else 1) = rb.length + if buf = [] then 0 else 1 := by
  cases buf with
  | nil => exact rbErase_length h a
  | cons b bs =>
    have hins := rbInsert_length h a (b :: bs)
    rw [rbSet, hins]
    split_ifs <;> simp_all

@[simp] theorem pppDeliver_rb (r : Result PppFrame) (s : State) : (pppDeliver r s).rb = s.rb := by
  cases r with
  | err e => exact raise_rb e s
  | ok f => exact innerRx_rb f.protocol f.body s

/-- Two states that differ in other sources' buffers only, in canonical tables that PPP_RX cannot tell apart by
their number of entries. -/
structure AgreeOn (src : Addr) (s u : State) : Prop where
  eq : u = withRb u.rb s
  wf_left : rbWf s.rb = true
  wf_right : rbWf u.rb = true
  buffer : rbGet u.rb src = rbGet s.rb src
  count : u.rb.length = s.rb.length ∨ s.cfg.nSrc = none

namespace AgreeOn
variable {src : Addr} {s u : State}

theorem cfg (h : AgreeOn src s u) : u.cfg = s.cfg := by rw [h.eq, withRb_cfg]

theorem noRoomFor (h : AgreeOn src s u) : noRoomFor src u = noRoomFor src s := by
  rw [Machine.noRoomFor, Machine.noRoomFor, h.buffer, h.cfg]
  rcases h.count with hlen | hnone
  · rw [hlen]
  · rw [hnone]
    rfl

/-- Writing the buffer of the source on both sides. -/
theorem setRb (h : AgreeOn src s u) (buf : List Byte) : AgreeOn src (setRb src buf s) (setRb src buf u) where
  eq := by rw [h.eq]; rfl
  wf_left := setRb_wf h.wf_left buf
  wf_right := setRb_wf h.wf_right buf
  buffer := by rw [setRb_rbGet_same h.wf_left, setRb_rbGet_same h.wf_right]
  count := by
    refine h.count.imp_left fun hlen => ?_
    have hs := rbSet_length h.wf_left src buf
    have hu := rbSet_length h.wf_right src buf
    rw [h.buffer] at hu
    rw [setRb_rb, setRb_rb]
    omega

/-- A function that neither reads nor writes the table keeps the agreement. -/
theorem map (h : AgreeOn src s u) {f : State → State} (hf : ∀ rb t, f (withRb rb t) = withRb rb (f t))
    (hrb : ∀ t, (f t).rb = t.rb) (hcfg : ∀ t, (f t).cfg = t.cfg) : AgreeOn src (f s) (f u) where
  eq := by rw [hrb]; conv_lhs => rw [h.eq, hf]
  wf_left := by rw [hrb]; exact h.wf_left
  wf_right := by rw [hrb]; exact h.wf_right
  buffer := by rw [hrb, hrb]; exact h.buffer
  count := by rw [hrb, hrb, hcfg]; exact h.count

theorem raise (h : AgreeOn src s u) (e : Err) : AgreeOn src (raise e s) (raise e u) :=
  h.map (fun rb t => raise_withRb rb t e) (raise_rb e) (raise_cfg e)

theorem pppDeliver (h : AgreeOn src s u) (r : Result PppFrame) : AgreeOn src (pppDeliver r s) (pppDeliver r u) :=
  h.map (fun rb t => pppDeliver_withRb rb t r)
    (pppDeliver_rb r) (pppDeliver_cfg r)

theorem pppByte (h : AgreeOn src s u) (b : Byte) : AgreeOn src (pppByte src b s) (pppByte src b u) := by
  rcases pppByte_cases src b s with ⟨rfl, hbuf, hs⟩ | ⟨hb, hover, hs⟩ | ⟨hb, hfits, hs⟩
  · rw [hs, pppByte_ends (by rw [h.buffer]; exact hbuf), h.buffer]
    exact (h.setRb []).pppDeliver _
  · rw [hs, pppByte_overflows (by rw [h.buffer]; exact hb) (by rw [h.buffer, h.cfg]; exact hover)]
    exact (h.setRb []).raise _
  · rw [hs, pppByte_stores (by rw [h.buffer]; exact hb) (by rw [h.buffer, h.cfg]; exact hfits), h.buffer]
    exact h.setRb _

theorem pppRx (h : AgreeOn src s u) (p : List Byte) : AgreeOn src (pppRx src p s) (pppRx src p u) := by
  induction p generalizing s u with
  | nil => exact h
  | cons b p ih =>
    rw [Machine.pppRx, Machine.pppRx, h.noRoomFor]
    split_ifs
    · exact h.raise _
    · exact ih (h.pppByte b)

end AgreeOn

/-- PPP_RX leaves the buffer of every other source alone (R219). -/
theorem rbGet_pppRx_other {src other : Addr} (h : other ≠ src) (p : List Byte) (s : State) :
    rbGet (pppRx src p s).rb other = rbGet s.rb other := by
  induction p generalizing s with
  | nil => rfl
  | cons b p ih =>
    rw [pppRx]
    split_ifs
    · rw [raise_rb]
    · rw [ih]
      rcases pppByte_cases src b s with ⟨-, -, hs⟩ | ⟨-, -, hs⟩ | ⟨-, -, hs⟩
      · rw [hs, pppDeliver_rb, setRb_rb, rbGet_rbSet_other _ _ h]
      · rw [hs, raise_rb, setRb_rb, rbGet_rbSet_other _ _ h]
      · rw [hs, setRb_rb, rbGet_rbSet_other _ _ h]

/-! ## The statements -/

/-- Settles O34. -/
theorem rxByteCutsTheStream : Obligations.RxByteCutsTheStream := by
  rintro b s ob e h rfl
  refine ⟨fun hshort => ?_, fun hlen he => ?_, fun h18 hok hne => ?_, fun h18 hok heq => ?_⟩
  · exact congrArg _ (rxByte_waits (fun hlen => by omega) (fun h18 => by omega))
  · exact congrArg _ ((rxByte_of_bad_header hlen he).trans (raise_eq_raised e _))
  · exact congrArg _ (rxByte_waits (fun hlen => ⟨h, hok hlen⟩) (fun _ => hne))
  · exact congrArg _ (rxByte_delivers (fun hlen => ⟨h, hok hlen⟩) h18 heq)

/-- Settles O35: the fields of a frame in the layout of R100, then the three outcomes. -/
theorem outerDeliverFiltersAndRoutes : Obligations.OuterDeliverFiltersAndRoutes := by
  rintro head src dst t0 t1 payload frame s hhead rfl
  match head, hhead with
  | [h0, h1, h2, h3], _ =>
    have htyp : read16 ([h0, h1, h2, h3] ++ src.bytes ++ dst.bytes ++ [t0, t1] ++ payload) 16 = word t0 t1 :=
      read16_eq_word _ _
    rw [← outerFilter_iff]
    refine ⟨fun hf => congrArg _ (outerDeliver_of_filtered hf), fun hf => ⟨fun h1 h2 => ?_, fun hc => ?_⟩⟩
    · have hc : ¬ isCarrier s.cfg (word t0 t1) = true := by
        rw [isCarrier_iff, not_or]
        exact ⟨h1, h2⟩
      rw [← htyp] at hc ⊢
      exact congrArg _ (outerDeliver_of_other hf hc)
    · rw [← isCarrier_iff, ← htyp] at hc
      exact congrArg _ (outerDeliver_of_carrier hf hc)

/-- Settles O36. -/
theorem pppRxReassemblesWithinTheCapacities : Obligations.PppRxReassemblesWithinTheCapacities := by
  intro src body rest b s
  refine ⟨fun hwf hbuf hroom hbody hfits => ⟨?_, ?_⟩, fun hbuf => ?_, fun hroom hb hfits => ?_, fun hbuf hfull => ?_,
    fun c hroom hmax hlen hb => ?_⟩
  · have hget : rbGet (setRb src [flag] s).rb src = [flag] := setRb_rbGet_same hwf _
    have hstores := pppRx_stores (s := setRb src [flag] s) (setRb_wf hwf _) (by rw [hget]; simp) hbody
      (by rw [hget]; exact fun c hc => le_trans (by simp; omega) (hfits c hc)) []
    rw [hget, setRb_setRb hwf (by simp), List.append_nil] at hstores
    exact congrArg _ ((pppRx_opens hbuf hroom (fun c hc => le_trans (by omega) (hfits c hc)) body).trans hstores)
  · exact congrArg _ ((pppRx_whole_frame hwf hbuf hroom hbody hfits).trans (pppDeliver_eq_extracted _))
  · exact congrArg _ ((pppRx_ends hbuf).trans (pppDeliver_eq_extracted _))
  · exact congrArg _ ((pppRx_cons_of_room hroom b []).trans (pppByte_stores hb ((fitsBuffer_iff _).mp hfits)))
  · exact congrArg _ ((pppRx_cons_of_full hbuf hfull b rest).trans (raise_eq_raised _ s))
  · have hover : exceeds ((rbGet s.rb src).length + 1) s.cfg.pppBufMax = true := by
      rw [hmax, exceeds]
      exact decide_eq_true (by omega)
    exact congrArg _ ((pppRx_cons_of_room hroom b []).trans
      ((pppByte_overflows hb hover).trans (raise_eq_raised _ _)))

/-- Settles O37. -/
theorem onlyTheConcatenationOfPayloadsMatters : Obligations.OnlyTheConcatenationOfPayloadsMatters := by
  intro src p q s t hnone hp
  obtain rfl := Host.Outcome.next.inj hp
  exact congrArg _ (pppRx_append_of_unbounded hnone src p q)

/-- Settles O39. -/
theorem innerRxTestsInOrder : Obligations.InnerRxTestsInOrder := by
  intro protocol body m e s
  refine ⟨fun hp => ?_, fun hp he => ?_, fun hp hm h2 hb => ?_, fun hp hm hto => ?_⟩
  · exact congrArg _ ((innerRx_of_wrong_protocol hp).trans (raise_eq_raised _ s))
  · exact congrArg _ ((innerRx_of_err hp he).trans (raise_eq_raised e s))
  · exact congrArg _ (innerRx_of_filtered hp hm h2 hb)
  · exact congrArg _ (innerRx_of_accepted hp hm hto)

/-- Settles O40. -/
theorem dispatchMatchesThenDecides : Obligations.DispatchMatchesThenDecides := by
  intro m s
  refine ⟨fun hno => congrArg _ (dispatch_of_no_match hno), fun hm he => ?_, fun hm he hmode => ?_,
    fun hm he hmode => congrArg _ (dispatch_of_multi hm he hmode)⟩
  · exact congrArg _ ((dispatch_of_match hm).trans ((if_pos he).trans
      (by rw [errOf_toNat, raise_eq_raised])))
  · rw [← hmode]
    exact congrArg _ ((dispatch_of_match hm).trans ((if_neg (not_not.mpr he)).trans (if_pos hmode)))

/-- Settles O41, row by row. -/
theorem accStepCollectsInStrictOrder : Obligations.AccStepCollectsInStrictOrder := by
  intro m s e
  refine ⟨fun hx hf => ?_, fun c hx hf hmax hcap => ?_, fun hx hf hcap => ⟨fun hmore => ?_, fun hlast => ?_⟩,
    fun hx hlt hne => ?_, fun hx hlt heq => ⟨fun hmore => ?_, fun hlast => ?_⟩⟩
  · rcases accStep_first (m := m) hx with ⟨-, h⟩ | ⟨hf', -⟩ | ⟨hf', -⟩
    · exact congrArg _ (h.trans (by rw [errOf_toNat, raise_eq_raised]))
    all_goals rw [hf] at hf'; cases hf'
  · have hover : exceeds (m.pktcount.toNat + 1) s.cfg.accMaxPkts = true := by
      rw [hmax, exceeds]
      exact decide_eq_true hcap
    rcases accStep_first (m := m) hx with ⟨hf', -⟩ | ⟨-, -, h⟩ | ⟨-, hcap', -⟩
    · rw [hf] at hf'
      cases hf'
    · exact congrArg _ (h.trans (by rw [errOf_toNat, raise_eq_raised]))
    · rw [hover] at hcap'
      cases hcap'
  · refine congrArg _ ((accStep_collects_first hx hf ((exceeds_eq_false_iff _ _).mpr hcap)).trans ?_)
    rw [accFinish_of_more hmore, pktcount_add_one]
    rfl
  · refine congrArg _ ((accStep_collects_first hx hf ((exceeds_eq_false_iff _ _).mpr hcap)).trans ?_)
    rw [accFinish_of_last hlast (by rw [toNat_pktcount_add_one, hlast]; rfl)]
    rfl
  · rcases accStep_next (m := m) hx with ⟨-, h⟩ | ⟨hcount, -⟩
    · exact congrArg _ (h.trans (by rw [errOf_toNat, raise_eq_raised]))
    · omega
  · refine congrArg _ ((accStep_collects_next hx (by omega)).trans ?_)
    rw [accFinish_of_more hmore, collected, ← hx]
    rfl
  · refine congrArg _ ((accStep_collects_next hx (by omega)).trans ?_)
    rw [accFinish_of_last hlast (by simp [collected]; omega)]
    rfl

end Sys2Proof.Machine

/-! PROOF. Events and who writes what: what the receive path reports and how that agrees with the state of the wait
(R40, R219, R273, R365, R415), and the column "written by" of R20. -/

namespace Sys2Proof.Machine
open Sys2Proof Sys2Proof.Spec

/-! ## Reports: the events appended, and ESR as their sum (R36, R40) -/

/-- From `s` to `t` exactly the events `evs` were appended, and `ESR` sums them up. -/
structure Reports (s t : State) (evs : List Event) : Prop where
  evq : t.evq = s.evq ++ evs
  esr : t.esr = evs.foldl esrAfterEvent s.esr

theorem Reports.nil {s t : State} (hevq : t.evq = s.evq) (hesr : t.esr = s.esr) : Reports s t [] :=
  ⟨by rw [hevq, List.append_nil], hesr⟩

theorem Reports.trans {s t u : State} {evs evs' : List Event} (h : Reports s t evs) (h' : Reports t u evs') :
    Reports s u (evs ++ evs') :=
  ⟨by rw [h'.evq, h.evq, List.append_assoc], by rw [h'.esr, h.esr, List.foldl_append]⟩

theorem raise_reports (e : Err) (s : State) : Reports s (raise e s) [.error e] :=
  ⟨raise_evq e s, by rw [raise_esr, esrWith_causeKind]; rfl⟩

/-! ## Reports of a wait (R273, R365, R415) -/

/-- `Reports`, in agreement with the wait: a result or an error ends it, `CST` says which, and without a wait there
is no result. -/
structure WaitReports (s t : State) (evs : List Event) : Prop extends Reports s t evs where
  raisable : ∀ e, .error e ∈ evs → raisable (causeKind e.cause) = true
  error_ends : (∃ ev ∈ evs, isError ev = true) → t.pend.valid = false
  result_ends : (∃ ev ∈ evs, isResult ev = true) → t.pend.valid = false
  idle_stays : s.pend.valid = false → t.pend.valid = false ∧ t.cst = s.cst ∧ evs.countP isResult = 0
  ended : s.pend.valid = true → t.pend.valid = false →
    (t.cst = .complete ∧ ∃ ev ∈ evs, isResult ev = true) ∨ (t.cst = .failed ∧ ∃ ev ∈ evs, isError ev = true)
  one_result : evs.countP isResult ≤ 1

theorem exists_mem_append {P : Event → Prop} {evs evs' : List Event} :
    (∃ ev ∈ evs ++ evs', P ev) ↔ (∃ ev ∈ evs, P ev) ∨ ∃ ev ∈ evs', P ev := by
  simp only [List.mem_append, or_and_right, exists_or]

namespace WaitReports
variable {s t u : State} {evs evs' : List Event}

theorem no_result_of_pending (h : WaitReports s t evs) (hp : t.pend.valid = true) : evs.countP isResult = 0 := by
  rw [List.countP_eq_zero]
  intro ev hev hres
  rw [h.result_ends ⟨ev, hev, hres⟩] at hp
  cases hp

theorem trans (h : WaitReports s t evs) (h' : WaitReports t u evs') : WaitReports s u (evs ++ evs') where
  toReports := h.toReports.trans h'.toReports
  raisable e he := (List.mem_append.mp he).elim (h.raisable e) (h'.raisable e)
  error_ends he := (exists_mem_append.mp he).elim (fun h1 => (h'.idle_stays (h.error_ends h1)).1) h'.error_ends
  result_ends he := (exists_mem_append.mp he).elim (fun h1 => (h'.idle_stays (h.result_ends h1)).1) h'.result_ends
  idle_stays hs := by
    obtain ⟨ht, hcst, hres⟩ := h.idle_stays hs
    obtain ⟨hu, hcst', hres'⟩ := h'.idle_stays ht
    exact ⟨hu, hcst'.trans hcst, by rw [List.countP_append, hres, hres']⟩
  ended hs hu := by
    cases ht : t.pend.valid with
    | true =>
      exact (h'.ended ht hu).imp (And.imp_right fun h2 => exists_mem_append.mpr (.inr h2))
        (And.imp_right fun h2 => exists_mem_append.mpr (.inr h2))
    | false =>
      rw [(h'.idle_stays ht).2.1]
      exact (h.ended hs ht).imp (And.imp_right fun h1 => exists_mem_append.mpr (.inl h1))
        (And.imp_right fun h1 => exists_mem_append.mpr (.inl h1))
  one_result := by
    rw [List.countP_append]
    cases ht : t.pend.valid with
    | true => rw [h.no_result_of_pending ht, Nat.zero_add]; exact h'.one_result
    | false => rw [(h'.idle_stays ht).2.2, Nat.add_zero]; exact h.one_result

/-- Nothing is reported and the wait stays as it is. -/
theorem unchanged (hevq : t.evq = s.evq) (hesr : t.esr = s.esr) (hpend : t.pend = s.pend)
    (hcst : s.pend.valid = false → t.cst = s.cst) : WaitReports s t [] where
  toReports := .nil hevq hesr
  raisable := by simp
  error_ends := by simp
  result_ends := by simp
  idle_stays hs := ⟨by rw [hpend, hs], hcst hs, rfl⟩
  ended hs ht := by
    rw [hpend, hs] at ht
    cases ht
  one_result := Nat.zero_le _

/-- A result is reported and the wait it belongs to ends. -/
theorem completed {ev : Event} (hs : s.pend.valid = true) (hev : isResult ev = true) (hevq : t.evq = s.evq ++ [ev])
    (hesr : t.esr = s.esr) (ht : t.pend.valid = false) (hcst : t.cst = .complete) : WaitReports s t [ev] where
  evq := hevq
  esr := by
    cases ev with
    | error e => cases hev
    | _ => exact hesr
  raisable e he := by
    rw [← List.mem_singleton.mp he] at hev
    cases hev
  error_ends _ := ht
  result_ends _ := ht
  idle_stays hidle := by
    rw [hs] at hidle
    cases hidle
  ended _ _ := .inl ⟨hcst, ev, List.mem_singleton_self ev, hev⟩
  one_result := List.countP_le_length

end WaitReports

theorem raise_cst_of_pending {e : Err} {s : State} (h : s.pend.valid = true) : (raise e s).cst = .failed := by
  rw [raise_of_pending h]
  rfl

theorem raise_cst_of_idle {e : Err} {s : State} (h : s.pend.valid = false) : (raise e s).cst = s.cst := by
  rw [raise_of_idle h]
  rfl

theorem raise_waitReports {e : Err} (he : raisable (causeKind e.cause) = true) (s : State) :
    WaitReports s (raise e s) [.error e] where
  toReports := raise_reports e s
  raisable e' he' := by rwa [Event.error.inj (List.mem_singleton.mp he')]
  error_ends _ := raise_pend_valid e s
  result_ends _ := raise_pend_valid e s
  idle_stays hs := ⟨raise_pend_valid e s, raise_cst_of_idle hs, rfl⟩
  ended hs _ := .inr ⟨raise_cst_of_pending hs, .error e, List.mem_singleton_self _, rfl⟩
  one_result := List.countP_le_length

theorem emit_outer_waitReports (src dst : Addr) (typ : U16) (payload : List Byte) (s : State) :
    WaitReports s (emit (.outer src dst typ payload) s) [.outer src dst typ payload] where
  evq := rfl
  esr := rfl
  raisable := by simp
  error_ends := by simp [isError]
  result_ends := by simp [isResult]
  idle_stays hs := ⟨hs, rfl, rfl⟩
  ended hs ht := by
    rw [emit_pend, hs] at ht
    cases ht
  one_result := Nat.zero_le _

/-! ## What each function of the receive path reports -/

/-- At most one event is reported. -/
def OneReport (s t : State) : Prop := ∃ evs, evs.length ≤ 1 ∧ WaitReports s t evs

theorem OneReport.unchanged (s : State) : OneReport s s := ⟨[], Nat.zero_le _, .unchanged rfl rfl rfl fun _ => rfl⟩

theorem raise_oneReport {e : Err} (he : raisable (causeKind e.cause) = true) (s : State) :
    OneReport s (raise e s) := ⟨_, le_refl 1, raise_waitReports he s⟩

theorem raisable_of_receiveCause {c : Cause} (h : receiveCause c = true) : raisable (causeKind c) = true := by
  unfold receiveCause at h
  cases hk : causeKind c <;> simp [hk, raisable] at h ⊢

/-- ACC_STEP raises at once, or it collects the message and goes on with that (R302). -/
theorem accStep_cases (m : InnerMessage) (s : State) :
    (∃ e, raisable (causeKind e.cause) = true ∧ accStep m s = raise e s)
    ∨ ∃ e msgs c, accStep m s = accFinish m e (collected e msgs c s) := by
  cases hx : s.accExpected with
  | none =>
    rcases accStep_first (m := m) hx with ⟨-, h⟩ | ⟨-, -, h⟩ | ⟨-, -, h⟩
    · exact .inl ⟨_, rfl, h⟩
    · exact .inl ⟨_, rfl, h⟩
    · exact .inr ⟨_, _, _, h⟩
  | some e =>
    rcases accStep_next (m := m) hx with ⟨-, h⟩ | ⟨-, h⟩
    · exact .inl ⟨_, rfl, h⟩
    · exact .inr ⟨e, _, s.cst, h⟩

theorem accFinish_reports (m : InnerMessage) (e : U17) (s : State) : ∃ evs, Reports s (accFinish m e s) evs := by
  rcases accFinish_cases m e s with ⟨-, h⟩ | ⟨-, -, h⟩ | ⟨-, -, h⟩ <;> rw [h]
  · exact ⟨[], .nil rfl rfl⟩
  · exact ⟨_, raise_reports _ s⟩
  · exact ⟨[.resultMulti s.accCollected], rfl, rfl⟩

theorem accStep_reports (m : InnerMessage) (s : State) : ∃ evs, Reports s (accStep m s) evs := by
  rcases accStep_cases m s with ⟨e, -, h⟩ | ⟨e, msgs, c, h⟩ <;> rw [h]
  · exact ⟨_, raise_reports e s⟩
  · obtain ⟨evs, hevs⟩ := accFinish_reports m e (collected e msgs c s)
    exact ⟨evs, hevs.evq, hevs.esr⟩

theorem accStep_oneReport {s : State} (hp : s.pend.valid = true) (m : InnerMessage) : OneReport s (accStep m s) := by
  rcases accStep_cases m s with ⟨e, he, h⟩ | ⟨e, msgs, c, h⟩ <;> rw [h]
  · exact raise_oneReport he s
  · have hcollected : WaitReports s (collected e msgs c s) [] :=
      .unchanged rfl rfl rfl fun hidle => by rw [hp] at hidle; cases hidle
    rcases accFinish_cases m e (collected e msgs c s) with ⟨-, hf⟩ | ⟨-, -, hf⟩ | ⟨-, -, hf⟩ <;> rw [hf]
    · exact ⟨[], Nat.zero_le _, hcollected⟩
    · exact ⟨_, le_refl 1, hcollected.trans (raise_waitReports rfl _)⟩
    · exact ⟨_, le_refl 1, hcollected.trans (.completed hp rfl rfl rfl rfl rfl)⟩

theorem dispatch_oneReport (m : InnerMessage) (s : State) : OneReport s (dispatch m s) := by
  rcases dispatch_cases m s with ⟨-, h⟩ | ⟨-, -, h⟩ | ⟨hm, -, -, h⟩ | ⟨hm, -, -, h⟩ <;> rw [h]
  · exact .unchanged s
  · exact raise_oneReport rfl s
  · exact ⟨_, le_refl 1, .completed (matchesPending_iff.mp hm).1 rfl rfl rfl rfl rfl⟩
  · exact accStep_oneReport (matchesPending_iff.mp hm).1 m

theorem innerRx_oneReport (protocol : U16) (body : List Byte) (s : State) :
    OneReport s (innerRx protocol body s) := by
  rcases innerRx_cases protocol body s with ⟨-, h⟩ | ⟨e, he, h⟩ | ⟨m, -, h⟩ | ⟨m, -, -, h⟩ <;> rw [h]
  · exact raise_oneReport rfl s
  · exact raise_oneReport (raisable_of_receiveCause (innerParse_errsIn body e he)) s
  · exact .unchanged s
  · exact dispatch_oneReport m s

theorem pppDeliver_oneReport {r : Result PppFrame} (hr : ErrsIn receiveCause r) (s : State) :
    OneReport s (pppDeliver r s) := by
  cases r with
  | err e => exact raise_oneReport (raisable_of_receiveCause (errsIn_err.mp hr)) s
  | ok f => exact innerRx_oneReport f.protocol f.body s

/-- Writing the reassembly table reports nothing. -/
theorem OneReport.of_setRb {src : Addr} {buf : List Byte} {s t : State} (h : OneReport (setRb src buf s) t) :
    OneReport s t := by
  obtain ⟨evs, hlen, hevs⟩ := h
  exact ⟨evs, hlen, (WaitReports.unchanged rfl rfl rfl fun _ => rfl : WaitReports s (setRb src buf s) []).trans hevs⟩

theorem pppByte_oneReport (src : Addr) (b : Byte) (s : State) : OneReport s (pppByte src b s) := by
  rcases pppByte_cases src b s with ⟨-, -, h⟩ | ⟨-, -, h⟩ | ⟨-, -, h⟩ <;> rw [h]
  · exact (pppDeliver_oneReport (pppExtract_errsIn _) _).of_setRb
  · exact (raise_oneReport rfl _).of_setRb
  · exact (OneReport.unchanged _).of_setRb

theorem pppRx_waitReports (src : Addr) (p : List Byte) (s : State) :
    ∃ evs, WaitReports s (pppRx src p s) evs := by
  induction p generalizing s with
  | nil => exact ⟨[], .unchanged rfl rfl rfl fun _ => rfl⟩
  | cons b p ih =>
    rw [pppRx]
    split_ifs
    · exact ⟨_, raise_waitReports rfl s⟩
    · obtain ⟨evs, -, hbyte⟩ := pppByte_oneReport src b s
      obtain ⟨evs', hrest⟩ := ih (pppByte src b s)
      exact ⟨_, hbyte.trans hrest⟩

theorem outerDeliver_waitReports (frame : List Byte) (s : State) :
    ∃ evs, WaitReports s (outerDeliver frame s) evs := by
  rcases outerDeliver_cases frame s with h | h | h <;> rw [h]
  · exact ⟨[], .unchanged rfl rfl rfl fun _ => rfl⟩
  · exact pppRx_waitReports _ _ s
  · exact ⟨_, emit_outer_waitReports _ _ _ _ s⟩

theorem rxByte_waitReports (b : Byte) (s : State) : ∃ evs, WaitReports s (rxByte b s) evs := by
  have hob : ∀ buf, WaitReports s (setOb buf s) [] := fun buf => .unchanged rfl rfl rfl fun _ => rfl
  rcases rxByte_cases b s with ⟨e, -, he, h⟩ | ⟨-, h⟩ <;> rw [h]
  · exact ⟨_, (hob []).trans (raise_waitReports (raisable_of_receiveCause (outerParse_errsIn _ e he)) _)⟩
  · by_cases hc : outerHlen ≤ (s.ob ++ [b]).length ∧ (s.ob ++ [b]).length = (byteAt (s.ob ++ [b]) 1).toNat
    · obtain ⟨evs, hevs⟩ := outerDeliver_waitReports (s.ob ++ [b]) (setOb [] s)
      exact ⟨_, (rxComplete_delivers (s := setOb (s.ob ++ [b]) s) hc).symm ▸ (hob []).trans hevs⟩
    · exact ⟨_, (rxComplete_waits (s := setOb (s.ob ++ [b]) s) hc).symm ▸ hob _⟩

theorem OneReport.waitReports {s t : State} (h : OneReport s t) : ∃ evs, WaitReports s t evs :=
  let ⟨evs, _, hevs⟩ := h
  ⟨evs, hevs⟩

/-- During a wait every instruction of the receive path but RAISE, whose cause may be any, reports as the wait
requires. -/
theorem receive_waitReports {s : State} (hs : s.pend.valid = true) {i : Instr} (hi : ∀ e, i ≠ .raise e) :
    ∃ evs, WaitReports s (receive i s) evs := by
  cases i
  case rxByte b => exact rxByte_waitReports b s
  case outerDeliver frame => exact outerDeliver_waitReports frame s
  case pppRx src payload => exact pppRx_waitReports src payload s
  case innerRx protocol body => exact (innerRx_oneReport protocol body s).waitReports
  case dispatch m => exact (dispatch_oneReport m s).waitReports
  case accStep m => exact (accStep_oneReport hs m).waitReports
  case raise e => exact absurd rfl (hi e)
  all_goals exact (OneReport.unchanged s).waitReports

/-- Whatever an instruction of the receive path does, `ESR` sums up the events it appends. -/
theorem receive_reports (i : Instr) (s : State) : ∃ evs, Reports s (receive i s) evs := by
  have of_wait : ∀ {t}, (∃ evs, WaitReports s t evs) → ∃ evs, Reports s t evs := fun ⟨evs, h⟩ => ⟨evs, h.toReports⟩
  cases i
  case rxByte b => exact of_wait (rxByte_waitReports b s)
  case outerDeliver frame => exact of_wait (outerDeliver_waitReports frame s)
  case pppRx src payload => exact of_wait (pppRx_waitReports src payload s)
  case innerRx protocol body => exact of_wait (innerRx_oneReport protocol body s).waitReports
  case dispatch m => exact of_wait (dispatch_oneReport m s).waitReports
  case accStep m => exact accStep_reports m s
  case raise e => exact ⟨_, raise_reports e s⟩
  all_goals exact ⟨[], .nil rfl rfl⟩

/-- The end of a wait on the receive path is reported (R273). -/
theorem receive_ended {s : State} (hs : s.pend.valid = true) (i : Instr)
    (ht : (receive i s).pend.valid = false) :
    ∃ evs, (receive i s).evq = s.evq ++ evs
      ∧ (((receive i s).cst = .complete ∧ ∃ ev ∈ evs, isResult ev = true)
        ∨ ((receive i s).cst = .failed ∧ ∃ ev ∈ evs, isError ev = true)) := by
  by_cases hi : ∃ e, i = .raise e
  · obtain ⟨e, rfl⟩ := hi
    exact ⟨_, raise_evq e s, .inr ⟨raise_cst_of_pending hs, _, List.mem_singleton_self _, rfl⟩⟩
  · obtain ⟨evs, hevs⟩ := receive_waitReports hs (fun e he => hi ⟨e, he⟩)
    exact ⟨evs, hevs.evq, hevs.ended hs ht⟩

/-! ## What the receive path leaves alone (R20) -/

section
variable (i : Instr) (s : State)

@[simp] theorem receive_cfg : (receive i s).cfg = s.cfg := by cases i <;> simp [receive]
@[simp] theorem receive_inputs : (receive i s).inputs = s.inputs := by cases i <;> simp [receive]
@[simp] theorem receive_localAddr : (receive i s).localAddr = s.localAddr := by cases i <;> simp [receive]
@[simp] theorem receive_localAddr2 : (receive i s).localAddr2 = s.localAddr2 := by cases i <;> simp [receive]
@[simp] theorem receive_tagctr : (receive i s).tagctr = s.tagctr := by cases i <;> simp [receive]
@[simp] theorem receive_txq : (receive i s).txq = s.txq := by cases i <;> simp [receive]

theorem receive_ob (h : takesRxBytes i = false) : (receive i s).ob = s.ob := by
  cases i
  case rxByte => cases h
  all_goals simp [receive]

theorem receive_rb (h : reachesPppRx i = false) : (receive i s).rb = s.rb := by
  cases i
  case rxByte | outerDeliver | pppRx => cases h
  all_goals simp [receive]

end

/-! ## What each command leaves alone (R20) -/

namespace CommandStep
variable {i : Instr} {r : Response} {s u : State}

theorem cfg (h : CommandStep s i r u) : u.cfg = s.cfg := by cases h <;> rfl

theorem inputs (h : CommandStep s i r u) : u.inputs = s.inputs := by cases h <;> rfl

section
variable (h : CommandStep s i r u) (hreset : i ≠ .reset)
include h hreset

theorem localAddr (hi : ∀ a, i ≠ .setaddr a) : u.localAddr = s.localAddr := by
  cases h with
  | reset => exact absurd rfl hreset
  | setaddr _ a => exact absurd rfl (hi a)
  | _ => rfl

theorem localAddr2 (hi : ∀ a, i ≠ .setaddr2 a) : u.localAddr2 = s.localAddr2 := by
  cases h with
  | reset => exact absurd rfl hreset
  | setaddr2 _ a => exact absurd rfl (hi a)
  | _ => rfl

theorem tagctr (hi : i ≠ .tagalloc) (hi' : ∀ m mode, i ≠ .request m mode) : u.tagctr = s.tagctr := by
  cases h with
  | reset => exact absurd rfl hreset
  | tagalloc => exact absurd rfl hi
  | request _ m mode => exact absurd rfl (hi' m mode)
  | _ => rfl

theorem wait (habort : i ≠ .abort) (harm : ∀ tag mode, i ≠ .arm tag mode)
    (hrequest : ∀ m mode, i ≠ .request m mode) :
    u.pend = s.pend ∧ u.cst = s.cst ∧ u.accExpected = s.accExpected ∧ u.accCollected = s.accCollected := by
  cases h with
  | reset => exact absurd rfl hreset
  | arm _ tag mode => exact absurd rfl (harm tag mode)
  | request _ m mode => exact absurd rfl (hrequest m mode)
  | abort => exact absurd rfl habort
  | _ => exact ⟨rfl, rfl, rfl, rfl⟩

theorem esr : u.esr = s.esr := by
  cases h with
  | reset => exact absurd rfl hreset
  | _ => rfl

theorem ob (hi : i ≠ .flush) : u.ob = s.ob := by
  cases h with
  | reset => exact absurd rfl hreset
  | flush => exact absurd rfl hi
  | _ => rfl

theorem rb (hi : i ≠ .flush) : u.rb = s.rb := by
  cases h with
  | reset => exact absurd rfl hreset
  | flush => exact absurd rfl hi
  | _ => rfl

theorem evq (hi : i ≠ .abort) : u.evq = s.evq := by
  cases h with
  | reset => exact absurd rfl hreset
  | abort => exact absurd rfl hi
  | _ => rfl

theorem txq (hrequest : ∀ m mode, i ≠ .request m mode) (hsend : ∀ m a b y, i ≠ .send m a b y) :
    u.txq = s.txq := by
  cases h with
  | reset => exact absurd rfl hreset
  | send m a b y => exact absurd rfl (hsend m a b y)
  | request _ m mode => exact absurd rfl (hrequest m mode)
  | _ => rfl

/-- A command other than RESET reports nothing but the end of the wait it aborts. -/
theorem reports : ∃ evs, Reports s u evs := by
  by_cases hi : i = .abort
  · subst hi
    cases h with
    | abort => exact ⟨[.aborted s.pend.tag], rfl, rfl⟩
    | _ => exact ⟨[], .nil rfl rfl⟩
  · exact ⟨[], .nil (h.evq hreset hi) (h.esr hreset)⟩

theorem txq_grows : ∃ bytes, u.txq = s.txq ++ bytes := by
  cases h with
  | reset => exact absurd rfl hreset
  | send _ _ _ _ frame => exact ⟨frame, rfl⟩
  | request _ _ _ frame => exact ⟨frame, rfl⟩
  | _ => exact ⟨[], (List.append_nil _).symm⟩

/-- Of the commands only ABORT and RESET end a wait. -/
theorem ended (hs : s.pend.valid = true) (hu : u.pend.valid = false) :
    i = .abort ∧ u.cst = .idle ∧ u.evq = s.evq ++ [.aborted s.pend.tag] := by
  have hne : ¬ s.pend.valid = false := by rw [hs]; exact Bool.true_eq_false_eq_False
  cases h with
  | reset => exact absurd rfl hreset
  | abort => exact ⟨rfl, rfl, rfl⟩
  | arm hp => exact absurd hp hne
  | request hp => exact absurd hp hne
  | _ => exact absurd hu hne

end

end CommandStep

/-! ## The statements -/

/-- Settles O38. -/
theorem sourcesAreIsolated : Obligations.SourcesAreIsolated := by
  intro src other payload rb s t u ht
  obtain rfl := Host.Outcome.next.inj ht
  refine ⟨fun hne => rbGet_pppRx_other hne payload s, fun hs hrb hbuf hcount hu => ?_, ?_⟩
  · obtain rfl := Host.Outcome.next.inj hu
    have hagree : AgreeOn src s { s with rb := rb } := ⟨rfl, hs, hrb, hbuf, hcount⟩
    exact ⟨(hagree.pppRx payload).eq, (hagree.pppRx payload).buffer⟩
  · obtain ⟨evs, hevs⟩ := pppRx_waitReports src payload s
    exact ⟨evs, hevs.evq, hevs.error_ends⟩

/-- Settles O49, by what each of the three kinds of instructions leaves alone. -/
theorem eachStateIsWrittenOnlyByItsWriters : Obligations.EachStateIsWrittenOnlyByItsWriters := by
  intro i s t h
  rcases exec_cases h with ⟨hc, r, u, hstep, rfl⟩ | ⟨hu, w, rfl⟩ | ⟨hr, rfl⟩
  · refine ⟨hstep.cfg, fun _ => hstep.inputs, fun hu => ?_, fun hreset => ?_⟩
    · rw [isUnit_of_isCommand hc] at hu
      cases hu
    · exact ⟨hstep.localAddr hreset, hstep.localAddr2 hreset, hstep.tagctr hreset, fun _ => hstep.wait hreset,
        fun _ => hstep.esr hreset, fun _ => hstep.ob hreset, fun _ => hstep.rb hreset, fun _ => hstep.evq hreset,
        hstep.txq hreset⟩
  · refine ⟨rfl, fun hnot => ?_, fun _ => ⟨linkBytes s.cfg w, rfl⟩, fun _ => ?_⟩
    · rw [hu] at hnot
      cases hnot
    · exact ⟨fun _ => rfl, fun _ => rfl, fun _ _ => rfl, fun _ _ _ _ => ⟨rfl, rfl, rfl, rfl⟩, fun _ => rfl,
        fun _ _ => rfl, fun _ _ => rfl, fun _ _ => rfl, fun _ _ => rfl⟩
  · have hnot : onReceivePath i ≠ false := by rw [hr]; exact Bool.true_eq_false_eq_False
    refine ⟨receive_cfg i s, fun _ => receive_inputs i s, fun hu => ?_, fun _ => ?_⟩
    · rw [onReceivePath, hu, Bool.not_true, Bool.and_false] at hr
      cases hr
    · exact ⟨fun _ => receive_localAddr i s, fun _ => receive_localAddr2 i s, fun _ _ => receive_tagctr i s,
        fun hn => absurd hn hnot, fun hn => absurd hn hnot, fun hi _ => receive_ob i s hi,
        fun hi _ => receive_rb i s hi, fun hn => absurd hn hnot, fun _ _ => receive_txq i s⟩

/-- Settles O50. -/
theorem queuesGrowAndEsrSumsUpTheErrors : Obligations.QueuesGrowAndEsrSumsUpTheErrors := by
  intro i s t hreset h
  rcases exec_cases h with ⟨-, r, u, hstep, rfl⟩ | ⟨-, w, rfl⟩ | ⟨-, rfl⟩
  · obtain ⟨evs, hevs⟩ := hstep.reports hreset
    obtain ⟨bytes, hbytes⟩ := hstep.txq_grows hreset
    exact ⟨evs, bytes, hevs.evq, hbytes, hevs.esr⟩
  · exact ⟨[], [], (List.append_nil _).symm, (List.append_nil _).symm, rfl⟩
  · obtain ⟨evs, hevs⟩ := receive_reports i s
    exact ⟨evs, [], hevs.evq, by rw [receive_txq, List.append_nil], hevs.esr⟩

/-- Settles O51. -/
theorem everyEndOfAWaitIsReported : Obligations.EveryEndOfAWaitIsReported := by
  intro i s t hreset h hs ht
  rcases exec_cases h with ⟨-, r, u, hstep, rfl⟩ | ⟨-, w, rfl⟩ | ⟨-, rfl⟩
  · obtain ⟨hi, hcst, hevq⟩ := hstep.ended hreset hs ht
    exact ⟨_, hevq, .inr (.inr ⟨hcst, hi, rfl⟩)⟩
  · rw [sendUnit_pend, hs] at ht
    cases ht
  · obtain ⟨evs, hevq, hend⟩ := receive_ended hs i ht
    exact ⟨evs, hevq, hend.imp_right .inl⟩

end Sys2Proof.Machine

/-! PROOF. The invariants of spec/10_state.md: each holds right after reset and every step keeps it (R26, R30, R33,
R34, R36, R304); and the bound of R425 on the events that one byte causes. -/

namespace Sys2Proof.Machine
open Sys2Proof Sys2Proof.Spec

/-! ## What a step can do to the block -/

/-- The only instruction of the receive path that a word decodes to is RX_BYTE (R7). -/
theorem eq_rxByte_of_decode {p : Presented} {i : Instr} (h : decode p = .ok i) (hi : onReceivePath i = true) :
    ∃ b, i = .rxByte b := by
  obtain ⟨-, henc⟩ := encodeUndoesDecode i p h
  cases i
  case rxByte b => exact ⟨b, rfl⟩
  case outerDeliver | pppRx | innerRx | dispatch | accStep | raise => cases henc
  all_goals cases hi

/-- `BlockStep s t`: from `s`, with the stimulus already taken, one step of the block or a move of the environment
leads to `t`. -/
inductive BlockStep (s : State) : State → Prop
  | holds : BlockStep s s
  | command {i : Instr} {r : Response} {u : State} (h : CommandStep s i r u) : BlockStep s (respond r u)
  | receives (b : Byte) : BlockStep s (rxByte b s)
  | unit (u : WireUnit) : BlockStep s (sendUnit u s)
  | resets : BlockStep s (resetBlock s)
  | takesEvents (n : Nat) : BlockStep s (takeEvents n s)
  | takesTx (n : Nat) : BlockStep s (takeTx n s)

theorem blockStep_of_step {s t : State} (h : step s = .next t) : ∃ rest, BlockStep (setInputs rest s) t := by
  rcases step_cases h with ⟨-, rfl⟩ | ⟨p, i, rest, -, hdec, hexec⟩ | ⟨u, -, rest, -, -, rfl⟩ | ⟨rest, -, rfl⟩
    | ⟨n, rest, -, rfl⟩ | ⟨n, rest, -, rfl⟩
  · exact ⟨t.inputs, .holds⟩
  · rcases exec_cases hexec with ⟨-, r, u, hstep, rfl⟩ | ⟨-, u, rfl⟩ | ⟨hr, rfl⟩
    · exact ⟨rest, .command hstep⟩
    · exact ⟨rest, .unit u⟩
    · obtain ⟨b, rfl⟩ := eq_rxByte_of_decode hdec hr
      exact ⟨rest, .receives b⟩
  · exact ⟨rest, .unit u⟩
  · exact ⟨rest, .resets⟩
  · exact ⟨rest, .takesEvents n⟩
  · exact ⟨rest, .takesTx n⟩

/-! ## The outer buffer (R26) -/

theorem isOk_iff {α : Type} {r : Result α} : isOk r = true ↔ ∃ v, r = .ok v := by
  cases r <;> simp [isOk]

theorem obInv_iff (s : State) :
    obInv s = true ↔ s.ob.length ≤ 111 ∧
      (s.ob.length < 18 ∨ (∃ hd, outerParse (s.ob.take 18) = .ok hd) ∧ s.ob.length < (byteAt s.ob 1).toNat) := by
  simp only [obInv, Bool.and_eq_true, Bool.or_eq_true, decide_eq_true_eq, isOk_iff]
  exact Iff.rfl

theorem obInv_of_ob_eq_nil {s : State} (h : s.ob = []) : obInv s = true := by
  rw [obInv_iff, h]
  exact ⟨by simp, .inl (by simp)⟩

/-- The buffer with one more byte, when neither its header is bad nor the frame is complete. -/
theorem obInv_setOb_append {s : State} (h : obInv s = true) {b : Byte}
    (hok : (s.ob ++ [b]).length = 18 → ∃ hd, outerParse (s.ob ++ [b]) = .ok hd)
    (hne : 18 ≤ (s.ob ++ [b]).length → (s.ob ++ [b]).length ≠ (byteAt (s.ob ++ [b]) 1).toNat) :
    obInv (setOb (s.ob ++ [b]) s) = true := by
  obtain ⟨hlen, hhead⟩ := (obInv_iff s).mp h
  rw [obInv_iff, setOb_ob]
  by_cases h18 : 18 ≤ (s.ob ++ [b]).length
  · have hnext := hne h18
    have header : (∃ hd, outerParse ((s.ob ++ [b]).take 18) = .ok hd)
        ∧ (s.ob ++ [b]).length ≤ (byteAt (s.ob ++ [b]) 1).toNat := by
      rcases hhead with hshort | ⟨hparse, hlt⟩
      · have heq : (s.ob ++ [b]).length = 18 := by simp at h18 ⊢; omega
        obtain ⟨hd, hd'⟩ := hok heq
        obtain ⟨-, -, hmin, -⟩ := outerParse_eq_ok_iff.mp hd'
        exact ⟨⟨hd, by rwa [List.take_of_length_le (by omega)]⟩, by omega⟩
      · have h18' : 18 ≤ s.ob.length := by
          obtain ⟨hd, hd'⟩ := hparse
          obtain ⟨htake, -⟩ := outerParse_eq_ok_iff.mp hd'
          rw [List.length_take] at htake
          omega
        rw [List.take_append_of_le_length h18', byteAt_append_left (by omega), List.length_append]
        exact ⟨hparse, hlt⟩
    obtain ⟨⟨hd, hd'⟩, hle⟩ := header
    obtain ⟨-, -, -, hmax, -⟩ := outerParse_eq_ok_iff.mp hd'
    rw [byteAt_take (by omega)] at hmax
    exact ⟨by omega, .inr ⟨⟨hd, hd'⟩, by omega⟩⟩
  · exact ⟨by omega, .inl (by omega)⟩

theorem obInv_rxByte {s : State} (h : obInv s = true) (b : Byte) : obInv (rxByte b s) = true := by
  rcases rxByte_cases b s with ⟨e, -, -, hrx⟩ | ⟨hok, hrx⟩ <;> rw [hrx]
  · exact obInv_of_ob_eq_nil (by rw [raise_ob, setOb_ob])
  · by_cases hc : outerHlen ≤ (s.ob ++ [b]).length ∧ (s.ob ++ [b]).length = (byteAt (s.ob ++ [b]) 1).toNat
    · refine obInv_of_ob_eq_nil ?_
      rw [rxComplete_delivers (s := setOb (s.ob ++ [b]) s) hc, outerDeliver_ob, setOb_ob]
    · rw [rxComplete_waits (s := setOb (s.ob ++ [b]) s) hc]
      exact obInv_setOb_append h hok fun h18 heq => hc ⟨h18, heq⟩

theorem CommandStep.obInv {s u : State} {i : Instr} {r : Response} (h : CommandStep s i r u)
    (hs : obInv s = true) : obInv u = true := by
  cases h with
  | reset => exact obInv_of_ob_eq_nil rfl
  | flush => exact obInv_of_ob_eq_nil rfl
  | _ => exact hs

/-! ## The reassembly table (R30, D17) -/

/-- What R30 and R217 ask of one buffer: no flag but at index 0, and no more bytes than fit. -/
def bufferOk (s : State) (buf : List Byte) : Prop := flag ∉ buf.tail ∧ fitsBuffer buf.length s

theorem rbInv_iff (s : State) :
    rbInv s = true ↔ rbWf s.rb = true ∧ (∀ n, s.cfg.nSrc = some n → s.rb.length ≤ n)
      ∧ ∀ p ∈ s.rb, bufferOk s p.2 := by
  simp only [rbInv, Bool.and_eq_true, List.all_eq_true, Bool.not_eq_true', exceeds_eq_false_iff, bufferOk,
    fitsBuffer, List.contains_eq_mem, decide_eq_false_iff_not]
  constructor
  · rintro ⟨⟨⟨hwf, htail⟩, hlen⟩, hfits⟩
    exact ⟨hwf, hlen, fun p hp => ⟨htail p hp, hfits p hp⟩⟩
  · rintro ⟨hwf, hlen, hbuf⟩
    exact ⟨⟨⟨hwf, fun p hp => (hbuf p hp).1⟩, hlen⟩, fun p hp => (hbuf p hp).2⟩

theorem rbInv_congr {s t : State} (hrb : t.rb = s.rb) (hcfg : t.cfg = s.cfg) : rbInv t = rbInv s := by
  rw [rbInv, rbInv, hrb, hcfg]

theorem rbInv_of_rb_eq_nil {s : State} (h : s.rb = []) : rbInv s = true := by
  rw [rbInv_iff, h]
  exact ⟨rfl, fun _ _ => Nat.zero_le _, by simp⟩

theorem mem_rbSet {rb : List (Addr × List Byte)} {a : Addr} {buf : List Byte} {p : Addr × List Byte}
    (h : p ∈ rbSet rb a buf) : (p.2 = buf) ∨ p ∈ rb := by
  cases buf with
  | nil => exact .inr (mem_rbErase h)
  | cons b bs => exact (mem_rbInsert h).imp_left fun hp => by rw [hp]

theorem mem_of_rbGet_ne_nil {rb : List (Addr × List Byte)} {a : Addr} (h : rbGet rb a ≠ []) :
    (a, rbGet rb a) ∈ rb := by
  induction rb with
  | nil => exact absurd rfl h
  | cons p rest ih =>
    obtain ⟨k, buf⟩ := p
    by_cases hk : k = a
    · simp [rbGet, hk]
    · simp only [rbGet, hk, if_false] at h ⊢
      exact List.mem_cons_of_mem _ (ih h)

section
variable {src : Addr} {s : State}

/-- The buffer that is read for a source is as R30 asks. -/
theorem bufferOk_rbGet (h : rbInv s = true) (src : Addr) : bufferOk s (rbGet s.rb src) := by
  obtain ⟨-, -, hbuf⟩ := (rbInv_iff s).mp h
  by_cases hnil : rbGet s.rb src = []
  · rw [hnil]
    exact ⟨by simp, fun _ _ => Nat.zero_le _⟩
  · exact hbuf _ (mem_of_rbGet_ne_nil hnil)

theorem rbInv_setRb (h : rbInv s = true) (hroom : hasRoom src s) {buf : List Byte} (hbuf : bufferOk s buf) :
    rbInv (setRb src buf s) = true := by
  obtain ⟨hwf, hlen, hall⟩ := (rbInv_iff s).mp h
  refine (rbInv_iff _).mpr ⟨setRb_wf hwf buf, fun n hn => ?_, fun p hp => ?_⟩
  · have hset := rbSet_length hwf src buf
    have hle := hlen n hn
    rw [setRb_rb]
    rcases hroom with hne | hfree
    · rw [if_neg hne] at hset
      split_ifs at hset <;> omega
    · have := hfree n hn
      split_ifs at hset <;> omega
  · rcases mem_rbSet hp with hp | hp
    · rw [hp]
      exact hbuf
    · exact hall p hp

theorem bufferOk_nil (s : State) : bufferOk s [] := ⟨by simp, fun _ _ => Nat.zero_le _⟩

theorem rbInv_pppByte (h : rbInv s = true) (hroom : hasRoom src s) (b : Byte) : rbInv (pppByte src b s) = true := by
  have hempty := rbInv_setRb h hroom (bufferOk_nil s)
  rcases pppByte_cases src b s with ⟨-, -, hs⟩ | ⟨-, -, hs⟩ | ⟨hb, hfits, hs⟩ <;> rw [hs]
  · rw [rbInv_congr (pppDeliver_rb _ _) (pppDeliver_cfg _ _)]
    exact hempty
  · rw [rbInv_congr (raise_rb _ _) (raise_cfg _ _)]
    exact hempty
  · refine rbInv_setRb h hroom ⟨?_, by rw [List.length_append]; exact (fitsBuffer_iff _).mpr hfits⟩
    obtain ⟨htail, -⟩ := bufferOk_rbGet h src
    cases hbuf : rbGet s.rb src with
    | nil => simp
    | cons c cs =>
      rw [hbuf] at htail hb
      have hne : b ≠ flag := hb.resolve_right (by simp)
      simpa [Ne.symm hne] using htail

theorem rbInv_pppRx (h : rbInv s = true) (src : Addr) (p : List Byte) : rbInv (pppRx src p s) = true := by
  induction p generalizing s with
  | nil => exact h
  | cons b p ih =>
    rw [pppRx]
    split_ifs with hfull
    · rw [rbInv_congr (raise_rb _ _) (raise_cfg _ _)]
      exact h
    · exact ih (rbInv_pppByte h (noRoomFor_eq_false_iff.mp (by simpa using hfull)) b)

theorem rbInv_outerDeliver (h : rbInv s = true) (frame : List Byte) : rbInv (outerDeliver frame s) = true := by
  rcases outerDeliver_cases frame s with hd | hd | hd <;> rw [hd]
  · exact h
  · exact rbInv_pppRx h _ _
  · exact h

theorem rbInv_rxByte (h : rbInv s = true) (b : Byte) : rbInv (rxByte b s) = true := by
  rcases rxByte_cases b s with ⟨e, -, -, hrx⟩ | ⟨-, hrx⟩ <;> rw [hrx]
  · rw [rbInv_congr (raise_rb _ _) (raise_cfg _ _)]
    exact h
  · rw [rxComplete]
    split_ifs
    · exact rbInv_outerDeliver (s := setOb [] s) h _
    · exact h

end

theorem CommandStep.rbInv {s u : State} {i : Instr} {r : Response} (h : CommandStep s i r u)
    (hs : rbInv s = true) : rbInv u = true := by
  cases h with
  | reset => exact rbInv_of_rb_eq_nil rfl
  | flush => exact rbInv_of_rb_eq_nil rfl
  | _ => exact hs

/-! ## The reserved bits of ESR (R36) -/

theorem esrInv_iff (s : State) : esrInv s = true ↔ s.esr.getLsbD 4 = false ∧ s.esr.getLsbD 7 = false := by
  simp only [esrInv, Bool.and_eq_true, Bool.not_eq_true']

/-- The errors that reach RAISE have neither of the two reserved bits (R361). -/
theorem errorBit_reserved {e : Err} (h : raisable (causeKind e.cause) = true) :
    (errorBit e).getLsbD 4 = false ∧ (errorBit e).getLsbD 7 = false := by
  rw [errorBit, ← causeKind_eq_errorRow]
  generalize causeKind e.cause = k at h
  cases k
  case argument | busy => cases h
  all_goals exact ⟨rfl, rfl⟩

theorem esrInv_of_waitReports {s t : State} {evs : List Event} (h : WaitReports s t evs) (hs : esrInv s = true) :
    esrInv t = true := by
  rw [esrInv_iff] at hs ⊢
  have key : ∀ (evs : List Event) (esr : Byte),
      (∀ e, .error e ∈ evs → raisable (causeKind e.cause) = true) →
      esr.getLsbD 4 = false ∧ esr.getLsbD 7 = false →
      (evs.foldl esrAfterEvent esr).getLsbD 4 = false ∧ (evs.foldl esrAfterEvent esr).getLsbD 7 = false := by
    intro evs
    induction evs with
    | nil => exact fun _ _ hbits => hbits
    | cons ev evs ih =>
      intro esr herr hbits
      refine ih _ (fun e he => herr e (List.mem_cons_of_mem _ he)) ?_
      cases ev with
      | error e =>
        obtain ⟨h4, h7⟩ := errorBit_reserved (herr e List.mem_cons_self)
        simp only [esrAfterEvent, BitVec.getLsbD_or, h4, h7, hbits.1, hbits.2, Bool.or_self, and_self]
      | _ => exact hbits
  rw [h.esr]
  exact key evs s.esr h.raisable hs

theorem esrInv_resetBlock (s : State) : esrInv (resetBlock s) = true :=
  (esrInv_iff _).mpr ⟨by simp, by simp⟩

theorem CommandStep.esrInv {s u : State} {i : Instr} {r : Response} (h : CommandStep s i r u)
    (hs : esrInv s = true) : esrInv u = true := by
  cases h with
  | reset => exact esrInv_resetBlock s
  | _ => exact hs

/-! ## The statements on OB, RB and ESR -/

/-- Settles O55. -/
theorem everyStepKeepsTheOuterBufferInvariant : Obligations.EveryStepKeepsTheOuterBufferInvariant := by
  intro s t hs h
  obtain ⟨rest, hstep⟩ := blockStep_of_step h
  have hs' : obInv (setInputs rest s) = true := hs
  cases hstep with
  | command hcmd => exact hcmd.obInv hs'
  | receives b => exact obInv_rxByte hs' b
  | resets => exact obInv_of_ob_eq_nil rfl
  | _ => exact hs'

/-- Settles O56. -/
theorem everyStepKeepsTheReassemblyInvariant : Obligations.EveryStepKeepsTheReassemblyInvariant := by
  intro s t h
  obtain ⟨rest, hstep⟩ := blockStep_of_step h
  refine ⟨fun hs => ?_, fun hs => ?_⟩
  · have hs' : rbInv (setInputs rest s) = true := hs
    cases hstep with
    | command hcmd => exact hcmd.rbInv hs'
    | receives b => exact rbInv_rxByte hs' b
    | resets => exact rbInv_of_rb_eq_nil rfl
    | _ => exact hs'
  · have hs' : esrInv (setInputs rest s) = true := hs
    cases hstep with
    | command hcmd => exact hcmd.esrInv hs'
    | receives b =>
      obtain ⟨evs, hevs⟩ := rxByte_waitReports b (setInputs rest s)
      exact esrInv_of_waitReports hevs hs'
    | resets => exact esrInv_resetBlock _
    | _ => exact hs'

end Sys2Proof.Machine

/-! PROOF. The invariant of PEND, CST and ACC (R33, R34, R304), all invariants right after reset (R48), and the
bound of R425 on the events that one received byte causes. -/

namespace Sys2Proof.Machine
open Sys2Proof Sys2Proof.Spec

/-! ## PEND, CST and ACC (R33, R34) -/

/-- The three situations in which PEND, CST and ACC agree: no wait, a wait for the first message, a collection. -/
theorem corrInv_iff (s : State) :
    corrInv s = true ↔
      (s.pend.valid = false ∧ s.accExpected = none ∧ s.accCollected = []
        ∧ (s.cst = .idle ∨ s.cst = .complete ∨ s.cst = .failed))
      ∨ (s.pend.valid = true ∧ s.accExpected = none ∧ s.accCollected = [] ∧ s.cst = .awaitingFirst)
      ∨ (s.pend.valid = true ∧ s.cst = .accumulating ∧ s.pend.mode = .multi
        ∧ ∃ e, s.accExpected = some e ∧ accInv s e = true) := by
  cases hc : s.cst <;> cases hx : s.accExpected <;> simp [corrInv, hc, hx, and_assoc]

theorem corrInv_congr {s t : State} (hpend : t.pend = s.pend) (hcst : t.cst = s.cst)
    (hx : t.accExpected = s.accExpected) (hl : t.accCollected = s.accCollected) (hcfg : t.cfg = s.cfg) :
    corrInv t = corrInv s := by
  simp only [corrInv, accInv, hpend, hcst, hx, hl, hcfg]

/-- A wait that has ended, whatever was collected before. -/
theorem corrInv_of_closed {s : State} (hp : s.pend.valid = false) (hx : s.accExpected = none)
    (hl : s.accCollected = []) (hc : s.cst = .idle ∨ s.cst = .complete ∨ s.cst = .failed) : corrInv s = true :=
  (corrInv_iff s).mpr (.inl ⟨hp, hx, hl, hc⟩)

theorem accInv_iff (s : State) (e : U17) :
    accInv s e = true ↔ 1 ≤ s.accCollected.length ∧ s.accCollected.length < e.toNat
      ∧ countsDown e.toNat s.accCollected = true ∧ exceeds e.toNat s.cfg.accMaxPkts = false
      ∧ ∀ m ∈ s.accCollected, belongsTo s.pend.tag m = true := by
  simp only [accInv, Bool.and_eq_true, decide_eq_true_eq, Bool.not_eq_true', List.all_eq_true, and_assoc]

/-- One more message continues the countdown when its count is the next one. -/
theorem countsDown_append (e : Nat) (l : List InnerMessage) (m : InnerMessage) :
    countsDown e (l ++ [m]) = (countsDown e l && decide (m.pktcount.toNat + 1 = e - l.length)) := by
  induction l generalizing e with
  | nil => simp [countsDown]
  | cons x l ih =>
    have hsub : e - 1 - l.length = e - (l.length + 1) := by omega
    rw [List.cons_append, countsDown, countsDown, ih, hsub, Bool.and_assoc, List.length_cons]

theorem belongsTo_iff (tag : U15) (m : InnerMessage) :
    belongsTo tag m = true ↔ m.wf = true ∧ m.response = true ∧ m.tag = tag.setWidth 16 ∧ m.error = 0 := by
  simp only [belongsTo, Bool.and_eq_true, decide_eq_true_eq, and_assoc]

/-! ## Every function of the receive path keeps the agreement and reports no ACC_COUNT (R304) -/

/-- In `t` PEND, CST and ACC agree, and EVQ has no new ACC_COUNT. -/
structure KeepsCorr (s t : State) : Prop where
  inv : corrInv t = true
  count : ∀ info, .error ⟨.accCount, info⟩ ∈ t.evq → .error ⟨.accCount, info⟩ ∈ s.evq

theorem KeepsCorr.trans {s t u : State} (h : KeepsCorr s t) (h' : KeepsCorr t u) : KeepsCorr s u :=
  ⟨h'.inv, fun info hu => h.count info (h'.count info hu)⟩

theorem KeepsCorr.unchanged {s : State} (h : corrInv s = true) : KeepsCorr s s := ⟨h, fun _ hm => hm⟩

/-- A step that touches neither the wait nor EVQ. -/
theorem KeepsCorr.of_eq {s t : State} (h : corrInv s = true) (hpend : t.pend = s.pend) (hcst : t.cst = s.cst)
    (hx : t.accExpected = s.accExpected) (hl : t.accCollected = s.accCollected) (hcfg : t.cfg = s.cfg)
    (hevq : t.evq = s.evq) : KeepsCorr s t :=
  ⟨by rw [corrInv_congr hpend hcst hx hl hcfg, h], fun _ hm => hevq ▸ hm⟩

/-- A new event other than ACC_COUNT. -/
theorem count_append {s t : State} {ev : Event} (hevq : t.evq = s.evq ++ [ev])
    (hev : ∀ info, ev ≠ .error ⟨.accCount, info⟩) (info : U16) (hm : .error ⟨.accCount, info⟩ ∈ t.evq) :
    .error ⟨.accCount, info⟩ ∈ s.evq := by
  rw [hevq, List.mem_append, List.mem_singleton] at hm
  exact hm.resolve_right (Ne.symm (hev info))

/-- A result ends the wait. -/
theorem completed_keepsCorr {s : State} {ev : Event} (hev : isResult ev = true) (s' : State) (hevq : s'.evq = s.evq) :
    KeepsCorr s (setAcc none [] (closeWait .complete (emit ev s'))) where
  inv := corrInv_of_closed rfl rfl rfl (.inr (.inl rfl))
  count := count_append (by rw [setAcc_evq, closeWait_evq, emit_evq, hevq]) fun info heq => by
    rw [heq] at hev
    cases hev

theorem ne_accCount_of_receiveCause {c : Cause} (hc : receiveCause c = true) : c ≠ .accCount := by
  rintro rfl
  cases hc

/-- What ACC_STEP does with the message that makes the collection one of `e` with counts as R34 has them. -/
theorem accFinish_keepsCorr {s : State} {m : InnerMessage} {e : U17} {msgs : List InnerMessage}
    (hp : s.pend.valid = true) (hmulti : s.pend.mode = .multi) (hcap : exceeds e.toNat s.cfg.accMaxPkts = false)
    (hcount : m.pktcount.toNat + msgs.length = e.toNat) (hdown : countsDown e.toNat msgs = true)
    (hpos : 1 ≤ msgs.length) (hbelongs : ∀ m ∈ msgs, belongsTo s.pend.tag m = true) :
    KeepsCorr s (accFinish m e (collected e msgs .accumulating s)) := by
  by_cases hlast : m.pktcount.toNat = 0
  · have hlen : (collected e msgs .accumulating s).accCollected.length = e.toNat := by
      rw [← hcount, hlast, Nat.zero_add]
      rfl
    rw [accFinish_of_last hlast hlen]
    exact completed_keepsCorr rfl _ rfl
  · rw [accFinish_of_more hlast]
    refine ⟨(corrInv_iff _).mpr (.inr (.inr ⟨hp, rfl, hmulti, e, rfl, ?_⟩)), fun _ hm => hm⟩
    exact (accInv_iff _ e).mpr ⟨hpos, by simp only [collected, setAcc_accCollected]; omega, hdown, hcap, hbelongs⟩

section
variable {s : State} (h : corrInv s = true)
include h

theorem raise_keepsCorr {e : Err} (he : e.cause ≠ .accCount) : KeepsCorr s (raise e s) where
  inv := by
    cases hp : s.pend.valid with
    | true =>
      rw [raise_of_pending hp]
      exact corrInv_of_closed rfl rfl rfl (.inr (.inr rfl))
    | false =>
      rw [raise_of_idle hp]
      exact (corrInv_congr rfl rfl rfl rfl rfl).trans h
  count := count_append (raise_evq e s) fun info heq => he (by rw [Event.error.inj heq])

theorem accStep_keepsCorr {m : InnerMessage} (hp : s.pend.valid = true) (hmulti : s.pend.mode = .multi)
    (hm : belongsTo s.pend.tag m = true) : KeepsCorr s (accStep m s) := by
  have hidle : s.pend.valid ≠ false := by rw [hp]; exact Bool.true_eq_false_eq_False
  rcases (corrInv_iff s).mp h with ⟨hno, -⟩ | ⟨-, hx, -, -⟩ | ⟨-, hcst, -, e, hx, hacc⟩
  · exact absurd hno hidle
  · rcases accStep_first (m := m) hx with ⟨-, hs⟩ | ⟨-, -, hs⟩ | ⟨hf, hcap, -⟩
    · rw [hs]
      exact raise_keepsCorr h (by simp)
    · rw [hs]
      exact raise_keepsCorr h (by simp)
    · rw [accStep_collects_first hx hf hcap]
      have he := toNat_pktcount_add_one m.pktcount
      exact accFinish_keepsCorr hp hmulti (by rw [he]; exact hcap) (by rw [he]; rfl)
        (by rw [he]; simp [countsDown]) (le_refl 1) (by simpa using hm)
  · rcases accStep_next (m := m) hx with ⟨-, hs⟩ | ⟨hcount, -⟩
    · rw [hs]
      exact raise_keepsCorr h (by simp)
    · obtain ⟨hpos, -, hdown, hcap, hbelongs⟩ := (accInv_iff s e).mp hacc
      rw [accStep_collects_next hx hcount, hcst]
      refine accFinish_keepsCorr hp hmulti hcap ?_ ?_ ?_ ?_
      · rw [List.length_append, List.length_singleton]
        omega
      · rw [countsDown_append, hdown, Bool.true_and]
        exact decide_eq_true (by omega)
      · rw [List.length_append, List.length_singleton]
        omega
      · intro x hxm
        rcases List.mem_append.mp hxm with hxm | hxm
        · exact hbelongs x hxm
        · rwa [List.mem_singleton.mp hxm]

theorem dispatch_keepsCorr {m : InnerMessage} (hwf : m.wf = true) : KeepsCorr s (dispatch m s) := by
  rcases dispatch_cases m s with ⟨-, hd⟩ | ⟨-, -, hd⟩ | ⟨hm, -, hsingle, hd⟩ | ⟨hm, herr, hmulti, hd⟩ <;> rw [hd]
  · exact .unchanged h
  · exact raise_keepsCorr h (by simp)
  · have hp := (matchesPending_iff.mp hm).1
    rcases (corrInv_iff s).mp h with ⟨hno, -⟩ | ⟨-, hx, hl, -⟩ | ⟨-, -, hmulti, -⟩
    · rw [hp] at hno
      cases hno
    · exact ⟨corrInv_of_closed rfl hx hl (.inr (.inl rfl)), count_append rfl (by simp)⟩
    · rw [hsingle] at hmulti
      cases hmulti
  · obtain ⟨hp, hresp, -⟩ := matchesPending_iff.mp hm
    have htag : m.tag = s.pend.tag.setWidth 16 := by
      simp only [matchesPending, Bool.and_eq_true, decide_eq_true_eq] at hm
      exact hm.2
    exact accStep_keepsCorr h hp hmulti ((belongsTo_iff _ m).mpr ⟨hwf, hresp, htag, herr⟩)

theorem innerRx_keepsCorr (protocol : U16) (body : List Byte) : KeepsCorr s (innerRx protocol body s) := by
  rcases innerRx_cases protocol body s with ⟨-, hi⟩ | ⟨e, he, hi⟩ | ⟨m, -, hi⟩ | ⟨m, hm, -, hi⟩ <;> rw [hi]
  · exact raise_keepsCorr h (by simp)
  · exact raise_keepsCorr h (ne_accCount_of_receiveCause (innerParse_errsIn body e he))
  · exact .unchanged h
  · exact dispatch_keepsCorr h (wf_and_innerUnit_of_innerParse hm).1

theorem pppDeliver_keepsCorr {r : Result PppFrame} (hr : ErrsIn receiveCause r) : KeepsCorr s (pppDeliver r s) := by
  cases r with
  | err e => exact raise_keepsCorr h (ne_accCount_of_receiveCause (errsIn_err.mp hr))
  | ok f => exact innerRx_keepsCorr h f.protocol f.body

theorem setRb_keepsCorr (src : Addr) (buf : List Byte) : KeepsCorr s (setRb src buf s) :=
  .of_eq h rfl rfl rfl rfl rfl rfl

theorem pppByte_keepsCorr (src : Addr) (b : Byte) : KeepsCorr s (pppByte src b s) := by
  have hset := setRb_keepsCorr h src
  rcases pppByte_cases src b s with ⟨-, -, hb⟩ | ⟨-, -, hb⟩ | ⟨-, -, hb⟩ <;> rw [hb]
  · exact (hset []).trans (pppDeliver_keepsCorr (hset []).inv (pppExtract_errsIn _))
  · exact (hset []).trans (raise_keepsCorr (hset []).inv (by simp))
  · exact hset _

end

theorem pppRx_keepsCorr {s : State} (h : corrInv s = true) (src : Addr) (p : List Byte) :
    KeepsCorr s (pppRx src p s) := by
  induction p generalizing s with
  | nil => exact .unchanged h
  | cons b p ih =>
    rw [pppRx]
    split_ifs
    · exact raise_keepsCorr h (by simp)
    · exact (pppByte_keepsCorr h src b).trans (ih (pppByte_keepsCorr h src b).inv)

theorem outerDeliver_keepsCorr {s : State} (h : corrInv s = true) (frame : List Byte) :
    KeepsCorr s (outerDeliver frame s) := by
  rcases outerDeliver_cases frame s with hd | hd | hd <;> rw [hd]
  · exact .unchanged h
  · exact pppRx_keepsCorr h _ _
  · exact ⟨h, count_append rfl (by simp)⟩

theorem rxByte_keepsCorr {s : State} (h : corrInv s = true) (b : Byte) : KeepsCorr s (rxByte b s) := by
  have hob : ∀ buf, KeepsCorr s (setOb buf s) := fun buf => .of_eq h rfl rfl rfl rfl rfl rfl
  rcases rxByte_cases b s with ⟨e, -, he, hrx⟩ | ⟨-, hrx⟩ <;> rw [hrx]
  · exact (hob []).trans (raise_keepsCorr (hob []).inv (ne_accCount_of_receiveCause (outerParse_errsIn _ e he)))
  · rw [rxComplete]
    split_ifs
    · exact (hob []).trans (outerDeliver_keepsCorr (hob []).inv _)
    · exact hob _

theorem CommandStep.keepsCorr {s u : State} {i : Instr} {r : Response} (h : CommandStep s i r u)
    (hs : corrInv s = true) : KeepsCorr s (respond r u) := by
  have hopen : ∀ {t : State} (tag : U15) (mode : Mode), t.pend = ⟨true, mode, tag⟩ → t.cst = .awaitingFirst →
      t.accExpected = none → t.accCollected = [] → t.evq = s.evq → KeepsCorr s t := fun {t} tag mode hp hc hx hl hevq =>
    ⟨(corrInv_iff t).mpr (.inr (.inl ⟨by rw [hp], hx, hl, hc⟩)), fun _ hm => hevq ▸ hm⟩
  cases h with
  | reset => exact ⟨corrInv_of_closed rfl rfl rfl (.inl rfl), fun _ hm => absurd hm List.not_mem_nil⟩
  | arm _ tag mode => exact hopen (tag.setWidth 15) mode rfl rfl rfl rfl rfl
  | request _ m mode => exact hopen s.tagctr mode rfl rfl rfl rfl rfl
  | abort => exact ⟨corrInv_of_closed rfl rfl rfl (.inl rfl), count_append rfl (by simp)⟩
  | _ => exact .of_eq hs rfl rfl rfl rfl rfl rfl

/-! ## The bound of R425 -/

section
variable {src : Addr} {s : State}

/-- A source whose buffer has just been emptied has room for the next frame: its own entry was one of the table. -/
theorem hasRoom_setRb_nil (h : rbInv s = true) (hbuf : rbGet s.rb src ≠ []) : hasRoom src (setRb src [] s) := by
  obtain ⟨hwf, hlen, -⟩ := (rbInv_iff s).mp h
  have hset := rbSet_length hwf src []
  rw [if_neg hbuf, if_pos rfl] at hset
  refine .inr fun n hn => ?_
  have := hlen n hn
  rw [setRb_rb]
  omega

theorem hasRoom_of_rb_eq {t : State} (hrb : t.rb = s.rb) (hcfg : t.cfg = s.cfg) (h : hasRoom src s) :
    hasRoom src t := by
  rwa [hasRoom, hrb, hcfg]

/-- In a table within its capacities two bytes of a payload cause at most one event, for a frame takes at least two;
only a buffer that holds something already gives one more. -/
theorem pppRx_evq_length_le (h : rbInv s = true) (hmax : s.cfg.pppBufMax ≠ some 0) (hroom : hasRoom src s)
    (p : List Byte) :
    2 * (pppRx src p s).evq.length
      ≤ 2 * s.evq.length + p.length + (if rbGet s.rb src = [] then 0 else 1) := by
  induction p generalizing s with
  | nil =>
    rw [pppRx, List.length_nil]
    omega
  | cons b p ih =>
    have hinv := rbInv_pppByte h hroom b
    have hmax' : (pppByte src b s).cfg.pppBufMax ≠ some 0 := by rw [pppByte_cfg]; exact hmax
    have hwf := ((rbInv_iff s).mp h).1
    obtain ⟨evs, hone, hevs⟩ := pppByte_oneReport src b s
    have hevq : (pppByte src b s).evq.length = s.evq.length + evs.length := by rw [hevs.evq, List.length_append]
    rw [pppRx_cons_of_room hroom, List.length_cons]
    /- A frame that ends, or a buffer that overflows, holds something before the byte and nothing after it. -/
    have emptied : rbGet s.rb src ≠ [] → (pppByte src b s).rb = (setRb src [] s).rb →
        2 * (pppRx src p (pppByte src b s)).evq.length
          ≤ 2 * s.evq.length + (p.length + 1) + (if rbGet s.rb src = [] then 0 else 1) := by
      intro hbuf hrb
      have hrest := ih hinv hmax' (hasRoom_of_rb_eq hrb (pppByte_cfg src b s) (hasRoom_setRb_nil h hbuf))
      rw [hrb, setRb_rbGet_same hwf, if_pos rfl] at hrest
      rw [if_neg hbuf]
      omega
    rcases pppByte_cases src b s with ⟨-, hbuf, hs⟩ | ⟨-, hover, hs⟩ | ⟨-, -, hs⟩
    · exact emptied hbuf (by rw [hs, pppDeliver_rb])
    · refine emptied (fun hnil => hmax ?_) (by rw [hs, raise_rb])
      rw [hnil] at hover
      cases hc : s.cfg.pppBufMax with
      | none =>
        rw [hc] at hover
        cases hover
      | some c =>
        rw [hc, exceeds, decide_eq_true_eq, List.length_nil] at hover
        rw [show c = 0 by omega]
    · have hbuf : rbGet (pppByte src b s).rb src ≠ [] := by
        rw [hs, setRb_rbGet_same hwf]
        simp
      have hrest := ih hinv hmax' (.inl hbuf)
      have hsame : (pppByte src b s).evq.length = s.evq.length := by rw [hs, setRb_evq]
      rw [if_neg hbuf, hsame] at hrest
      omega

theorem outerDeliver_evq_length_le (h : rbInv s = true) (hmax : s.cfg.pppBufMax ≠ some 0) {frame : List Byte}
    (hlen : frame.length ≤ 112) : (outerDeliver frame s).evq.length ≤ s.evq.length + 47 := by
  rcases outerDeliver_cases frame s with hd | hd | hd <;> rw [hd]
  · omega
  · have hp : (frame.drop outerHlen).length ≤ 94 := by
      rw [List.length_drop, outerHlen]
      omega
    cases hfull : noRoomFor (addrAt frame 4) s with
    | false =>
      have := pppRx_evq_length_le h hmax (noRoomFor_eq_false_iff.mp hfull) (frame.drop outerHlen)
      split_ifs at this <;> omega
    | true =>
      cases hpayload : frame.drop outerHlen with
      | nil =>
        rw [pppRx]
        omega
      | cons b rest =>
        obtain ⟨hbuf, hn⟩ := noRoomFor_eq_true_iff.mp hfull
        rw [pppRx_cons_of_full hbuf hn, raise_evq, List.length_append, List.length_singleton]
        omega
  · rw [emit_evq, List.length_append, List.length_singleton]
    omega

theorem rxByte_evq_length_le (hob : obInv s = true) (hrb : rbInv s = true) (hmax : s.cfg.pppBufMax ≠ some 0)
    (b : Byte) : (rxByte b s).evq.length ≤ s.evq.length + 47 := by
  obtain ⟨hlen, -⟩ := (obInv_iff s).mp hob
  rcases rxByte_cases b s with ⟨e, -, -, hrx⟩ | ⟨-, hrx⟩ <;> rw [hrx]
  · rw [raise_evq, List.length_append, List.length_singleton, setOb_evq]
    omega
  · rw [rxComplete]
    split_ifs
    · exact outerDeliver_evq_length_le (s := setOb [] s) hrb hmax (by simp; omega)
    · rw [setOb_evq]
      omega

end

/-! ## The statements -/

/-- Settles O57. -/
theorem everyStepKeepsTheCorrelationInvariant : Obligations.EveryStepKeepsTheCorrelationInvariant := by
  intro s t hs h
  obtain ⟨rest, hstep⟩ := blockStep_of_step h
  have hs' : corrInv (setInputs rest s) = true := hs
  have keeps : KeepsCorr (setInputs rest s) t := by
    cases hstep with
    | holds => exact .unchanged hs'
    | command hcmd => exact hcmd.keepsCorr hs'
    | receives b => exact rxByte_keepsCorr hs' b
    | unit u => exact .of_eq hs' rfl rfl rfl rfl rfl rfl
    | resets => exact ⟨corrInv_of_closed rfl rfl rfl (.inl rfl), fun _ hm => absurd hm List.not_mem_nil⟩
    | takesEvents n => exact ⟨hs', fun _ hm => List.mem_of_mem_drop hm⟩
    | takesTx n => exact .of_eq hs' rfl rfl rfl rfl rfl rfl
  exact ⟨keeps.inv, keeps.count⟩

/-- Settles O54. -/
theorem resetSatisfiesEveryInvariant : Obligations.ResetSatisfiesEveryInvariant := by
  have hreset : ∀ cfg inputs, inv (State.resetKeeping cfg inputs) = true := by
    intro cfg inputs
    rw [inv, obInv_of_ob_eq_nil rfl, rbInv_of_rb_eq_nil rfl, corrInv_of_closed rfl rfl rfl (.inl rfl)]
    exact (esrInv_iff _).mpr ⟨by simp [State.resetKeeping], by simp [State.resetKeeping]⟩
  exact fun cfg inputs => ⟨hreset cfg inputs, hreset Config.default []⟩

/-- Settles O52. -/
theorem oneByteCausesAtMostFortySevenEvents : Obligations.OneByteCausesAtMostFortySevenEvents := by
  intro b s t hob hrb hmax h
  obtain rfl := Host.Outcome.next.inj h
  obtain ⟨evs, hevs⟩ := rxByte_waitReports b s
  have hlen := rxByte_evq_length_le hob hrb hmax b
  rw [hevs.evq, List.length_append] at hlen
  exact ⟨evs, hevs.evq, by omega, hevs.one_result⟩

end Sys2Proof.Machine

/-! PROOF. Units on the link and whole transfers: the bytes of an outer frame are delivered whole, the bytes of a
stuffed frame in whatever pieces reach INNER_RX, and what one block sends another dispatches (R92, R190, R217,
R244, R300). -/

namespace Sys2Proof.Machine
open Sys2Proof Sys2Proof.Spec

/-! ## The bytes of one outer frame (R100, R190) -/

/-- OUTER_PARSE reads the first 18 bytes only. -/
theorem outerParse_of_append {x y : List Byte} {hd : OuterHeader} (hx : 18 ≤ x.length)
    (h : outerParse (x ++ y) = .ok hd) : outerParse x = .ok hd := by
  have hbyte : ∀ i, i < 18 → byteAt (x ++ y) i = byteAt x i := fun i hi => byteAt_append_left (by omega) y
  rw [outerParse_eq_ok_iff] at h ⊢
  simp only [addrAt, read16_eq_word, hbyte, Nat.reduceAdd, Nat.reduceLT] at h ⊢
  obtain ⟨-, hrest⟩ := h
  exact ⟨hx, hrest⟩

/-- With the first bytes of a frame in `OB`, the rest of its bytes complete it and deliver it whole. -/
theorem rxBytes_completes {frame : List Byte} {hd : OuterHeader} (hok : outerParse frame = .ok hd)
    (hlen : (byteAt frame 1).toNat = frame.length) {q : List Byte} (hq : q ≠ []) {s : State}
    (hframe : s.ob ++ q = frame) : rxBytes q s = outerDeliver frame (setOb [] s) := by
  induction q generalizing s with
  | nil => exact absurd rfl hq
  | cons b q ih =>
    have hframe' : (s.ob ++ [b]) ++ q = frame := by rw [← hframe, List.append_assoc]; rfl
    have hheader : (s.ob ++ [b]).length = 18 → ∃ hd, outerParse (s.ob ++ [b]) = .ok hd := fun h18 =>
      ⟨hd, outerParse_of_append (y := q) (by omega) (by rw [hframe', hok])⟩
    rw [rxBytes]
    cases q with
    | nil =>
      rw [List.append_nil] at hframe'
      obtain ⟨h18, -⟩ := outerParse_eq_ok_iff.mp hok
      rw [rxByte_delivers hheader (by rw [hframe']; exact h18) (by rw [hframe', hlen]), hframe', rxBytes]
    | cons c q =>
      have hwaits : rxByte b s = setOb (s.ob ++ [b]) s := by
        refine rxByte_waits hheader fun h18 heq => ?_
        have hbyte : byteAt (s.ob ++ [b]) 1 = byteAt frame 1 := by
          rw [← hframe']
          exact (byteAt_append_left (by omega) (c :: q)).symm
        rw [hbyte, hlen, ← hframe', List.length_append (bs := c :: q), List.length_cons] at heq
        omega
      rw [hwaits, ih (by simp) hframe']
      rfl

theorem setOb_of_eq {s : State} {buf : List Byte} (h : s.ob = buf) : setOb buf s = s := by
  rw [← h]
  rfl

/-- Taken from an empty `OB`, the bytes of an outer frame deliver it. -/
theorem rxBytes_outerUnit {s : State} (hob : s.ob = []) {payload : List Byte} (h : payload.length ≤ maxPayload)
    (src dst : Addr) (typ : U16) :
    rxBytes (outerUnit src dst typ payload) s = outerDeliver (outerUnit src dst typ payload) s := by
  have hne : outerUnit src dst typ payload ≠ [] := List.ne_nil_of_length_pos (by rw [outerUnit_length]; omega)
  have hlen : (byteAt (outerUnit src dst typ payload) 1).toNat = (outerUnit src dst typ payload).length := by
    rw [outerUnit_byteAt_one, toNat_outerUnit_length h, outerUnit_length]
  rw [rxBytes_completes (outerParse_outerUnit h src dst typ) hlen hne (by rw [hob, List.nil_append]),
    setOb_of_eq hob]

theorem outerFilter_bcast (localAddr : Addr) : outerFilter localAddr bcast = true :=
  (outerFilter_iff _ _).mpr (.inr (.inl rfl))

/-- A piece of a stuffed stream, in an outer frame to everyone, goes to PPP_RX. -/
theorem rxBytes_carrier {s : State} (hob : s.ob = []) {payload : List Byte} (h : payload.length ≤ maxPayload)
    (src : Addr) : rxBytes (outerUnit src bcast s.cfg.otypePpp payload) s = pppRx src payload s := by
  rw [rxBytes_outerUnit hob h, outerDeliver_of_carrier (by rw [outerUnit_dst]; exact outerFilter_bcast _)
    (by rw [outerUnit_typ]; exact (isCarrier_iff _ _).mpr (.inl rfl)), outerUnit_src, outerUnit_payload]

theorem carrierFrame_eq (src : Addr) (s : State) (payload : List Byte) :
    carrierFrame src s payload = outerUnit src bcast s.cfg.otypePpp payload :=
  (outerUnit_eq_frameBytes src bcast s.cfg.otypePpp payload).symm

theorem runFor_arriving (bytes : List Byte) (s : State) :
    runFor bytes.length (arriving bytes s) = .next (rxBytes bytes s) := runFor_arrive bytes s

theorem carrierFrame_length (src : Addr) (s : State) (payload : List Byte) :
    (carrierFrame src s payload).length = 18 + payload.length := by
  rw [carrierFrame_eq, outerUnit_length]

/-- As many steps as a carrier frame has bytes hand its payload to PPP_RX. -/
theorem runFor_carrierFrame {s : State} (hob : s.ob = []) {payload : List Byte} (h : payload.length ≤ maxPayload)
    (src : Addr) :
    runFor (18 + payload.length) (arriving (carrierFrame src s payload) s) = .next (pppRx src payload s) := by
  rw [← carrierFrame_length src s payload, runFor_arriving, carrierFrame_eq, rxBytes_carrier hob h]

/-! ## A stuffed stream in pieces (R92, R217) -/

/-- The bytes of a stream's pieces, one outer frame each, hand the pieces to PPP_RX one after the other. -/
theorem rxBytes_pieces {s : State} (hob : s.ob = []) (src : Addr) {parts : List (List Byte)}
    (h : ∀ part ∈ parts, part.length ≤ maxPayload) :
    rxBytes (parts.flatMap (outerUnit src bcast s.cfg.otypePpp)) s
      = parts.foldl (fun t part => pppRx src part t) s := by
  induction parts generalizing s with
  | nil => rfl
  | cons part rest ih =>
    have hrest := ih (s := pppRx src part s) (by rw [pppRx_ob, hob]) fun p hp => h p (List.mem_cons_of_mem _ hp)
    rw [pppRx_cfg] at hrest
    rw [List.flatMap_cons, rxBytes_append, rxBytes_carrier hob (h part List.mem_cons_self), hrest, List.foldl_cons]

theorem foldl_pppRx_of_flatten_eq_nil (src : Addr) {parts : List (List Byte)} (h : parts.flatten = []) (s : State) :
    parts.foldl (fun t part => pppRx src part t) s = s := by
  induction parts generalizing s with
  | nil => rfl
  | cons part rest ih =>
    obtain ⟨rfl, hrest⟩ := List.append_eq_nil_iff.mp h
    exact ih hrest s

/-- The pieces of what is left of a frame, up to its closing flag, extract the frame. -/
theorem foldl_pppRx_ends {src : Addr} {s : State} (hwf : rbWf s.rb = true) (hbuf : rbGet s.rb src ≠ [])
    {y : List Byte} (hy : flag ∉ y) (hfits : fitsBuffer ((rbGet s.rb src).length + y.length) s)
    {parts : List (List Byte)} (hparts : parts.flatten = y ++ [flag]) :
    parts.foldl (fun t part => pppRx src part t) s
      = pppDeliver (pppExtract (rbGet s.rb src ++ y ++ [flag])) (setRb src [] s) := by
  induction parts generalizing s y with
  | nil => simp at hparts
  | cons part rest ih =>
    rw [List.flatten_cons] at hparts
    rw [List.foldl_cons]
    /- A piece that ends before the closing flag joins the buffer. -/
    have stores : ∀ z, y = part ++ z → rest.flatten = z ++ [flag] →
        rest.foldl (fun t part => pppRx src part t) (pppRx src part s)
          = pppDeliver (pppExtract (rbGet s.rb src ++ y ++ [flag])) (setRb src [] s) := by
      rintro z rfl hz
      rw [List.mem_append, not_or] at hy
      rw [List.length_append] at hfits
      have hget := setRb_rbGet_same (src := src) hwf (rbGet s.rb src ++ part)
      have hpart := pppRx_stores hwf hbuf hy.1 (fun c hc => le_trans (by omega) (hfits c hc)) []
      rw [List.append_nil, pppRx] at hpart
      rw [hpart, ih (setRb_wf hwf _) (by rw [hget]; simp [hbuf]) hy.2 ?_ hz, hget, setRb_setRb hwf (by simp [hbuf])]
      · simp only [List.append_assoc]
      · rw [hget, List.length_append]
        exact fun c hc => le_trans (by omega) (hfits c hc)
    rcases List.append_eq_append_iff.mp hparts with ⟨z, hz, hrest⟩ | ⟨c, hc, hrest⟩
    · exact stores z hz hrest
    · cases c with
      | nil => exact stores [] (by rw [hc, List.append_nil, List.append_nil]) hrest.symm
      | cons d c =>
        obtain ⟨rfl, hnil⟩ := List.cons.inj hrest
        obtain ⟨rfl, hrest'⟩ := List.append_eq_nil_iff.mp hnil.symm
        have hget := setRb_rbGet_same (src := src) hwf (rbGet s.rb src ++ y)
        rw [foldl_pppRx_of_flatten_eq_nil src hrest', hc, pppRx_stores hwf hbuf hy hfits,
          pppRx_ends (by rw [hget]; simp [hbuf]), hget, setRb_setRb hwf (by simp [hbuf])]

/-- The pieces of a whole stuffed frame reach the checks of R212 and then INNER_RX, wherever it is cut. -/
theorem foldl_pppRx_stuff {src : Addr} {s : State} {frame : List Byte} (hway : wayIsClear src (stuff frame) s)
    {parts : List (List Byte)} (hparts : parts.flatten = stuff frame) :
    parts.foldl (fun t part => pppRx src part t) s = pppDeliver (pppOpen frame) s := by
  obtain ⟨-, hwf, hbuf, hroom, hfits⟩ := hway
  have hflag : flag ∉ escEnc frame := by
    rw [escEnc_eq_flatMap_escaped]
    exact flag_not_mem_flatMap_escaped frame
  have hlen : (stuff frame).length - 1 = 1 + (escEnc frame).length := by simp [stuff]; omega
  rw [hlen] at hfits
  have hget := setRb_rbGet_same (src := src) hwf [flag]
  have hextract : pppExtract (flag :: (escEnc frame ++ [flag])) = pppOpen frame := by
    rw [pppExtract, ← stuff, destuff_stuff, andThen_ok]
  have hempty : setRb src [] s = s := by
    have := setRb_rbGet (src := src) hwf
    rwa [hbuf] at this
  /- The first piece that is not empty opens the frame. -/
  induction parts with
  | nil => simp [stuff] at hparts
  | cons part rest ih =>
    rw [List.flatten_cons, stuff] at hparts
    cases part with
    | nil => exact ih hparts
    | cons b p =>
      obtain ⟨rfl, htail⟩ := List.cons.inj hparts
      have hends := foldl_pppRx_ends (src := src) (s := setRb src [flag] s) (setRb_wf hwf _) (by rw [hget]; simp)
        hflag (by rw [hget]; exact hfits) (parts := p :: rest) htail
      rw [hget, setRb_setRb hwf (by simp), hempty, List.foldl_cons] at hends
      rw [List.foldl_cons, pppRx_opens hbuf hroom (fun c hc => le_trans (by omega) (hfits c hc)), hends]
      exact congrArg (pppDeliver · s) hextract

/-- Where the way is clear, the bytes that carry a stuffed frame do what its extraction does. -/
theorem rxBytes_carry_stuff {src : Addr} {s : State} {frame : List Byte} (hway : wayIsClear src (stuff frame) s) :
    rxBytes (carry s.cfg src (stuff frame)) s = pppDeliver (pppOpen frame) s := by
  obtain ⟨hflatten, hpieces⟩ := cut_spec _ (stuff frame) (le_refl _)
  rw [carry, rxBytes_pieces hway.1 src fun part hp => (hpieces part hp).2]
  exact foldl_pppRx_stuff hway hflatten

theorem rxBytes_carry_pppBuild {src : Addr} {protocol : U16} {body : List Byte} {s : State}
    (hway : wayIsClear src (pppBuild protocol body) s) :
    rxBytes (carry s.cfg src (pppBuild protocol body)) s = innerRx protocol body s := by
  rw [pppBuild, rxBytes_carry_stuff hway, (pppOpen_eq_ok_iff (x := ⟨protocol, body⟩)).mpr rfl, pppDeliver]

/-- A carried stream is a cut of it into carrier frames. -/
theorem carry_eq_flatMap (src : Addr) (stream : List Byte) (s : State) :
    carry s.cfg src stream = (cut stream.length stream).flatMap (carrierFrame src s) := by
  rw [carry, show carrierFrame src s = outerUnit src bcast s.cfg.otypePpp from funext (carrierFrame_eq src s)]

theorem cutsInto_cut (stream : List Byte) : cutsInto stream (cut stream.length stream) :=
  cut_spec _ stream (le_refl _)

/-- A well-formed message whose way is clear reaches DISPATCH if it passes the filter. -/
theorem rxBytes_message {src : Addr} {m : InnerMessage} {s : State} (hwf : m.wf = true)
    (hway : wayIsClear src (pppBuild s.cfg.smaProtocolId (innerUnit m)) s)
    (hto : m.to2 = s.localAddr2 ∨ m.to2 = s.cfg.bcast2) :
    rxBytes (carry s.cfg src (pppBuild s.cfg.smaProtocolId (innerUnit m))) s = dispatch m s := by
  rw [rxBytes_carry_pppBuild hway, innerRx_of_accepted rfl (innerParse_innerUnit hwf) hto]

/-! ## Buffers that are not empty, in whatever table -/

theorem rbGet_rbSet_of_ne_nil (rb : List (Addr × List Byte)) (a : Addr) {buf : List Byte} (h : buf ≠ []) :
    rbGet (rbSet rb a buf) a = buf := by
  obtain ⟨b, bs, rfl⟩ := List.exists_cons_of_ne_nil h
  exact rbGet_rbSet_cons rb a b bs

theorem rbSet_rbSet_of_ne_nil (rb : List (Addr × List Byte)) (a : Addr) {x y : List Byte} (hx : x ≠ [])
    (hy : y ≠ []) : rbSet (rbSet rb a x) a y = rbSet rb a y := by
  obtain ⟨b, bs, rfl⟩ := List.exists_cons_of_ne_nil hx
  obtain ⟨c, cs, rfl⟩ := List.exists_cons_of_ne_nil hy
  exact rbInsert_rbInsert rb a _ _

/-- Two bytes without a flag join a buffer with space for both. -/
theorem pppRx_pair {src : Addr} {s : State} {b c : Byte} (hb : b ≠ flag) (hc : c ≠ flag) (hroom : hasRoom src s)
    (hfits : fitsBuffer ((rbGet s.rb src).length + 2) s) :
    pppRx src [b, c] s = { s with rb := rbSet s.rb src (rbGet s.rb src ++ [b, c]) } := by
  have hfits1 : fitsBuffer ((rbGet s.rb src).length + 1) s := fun n hn => le_trans (by omega) (hfits n hn)
  have hne : rbGet s.rb src ++ [b] ≠ [] := by simp
  have hget : rbGet (setRb src (rbGet s.rb src ++ [b]) s).rb src = rbGet s.rb src ++ [b] :=
    rbGet_rbSet_of_ne_nil _ _ hne
  have hfits2 : exceeds ((rbGet s.rb src ++ [b]).length + 1) s.cfg.pppBufMax = false := by
    rw [List.length_append]
    exact (fitsBuffer_iff _).mp hfits
  rw [pppRx_cons_of_room hroom, pppByte_stores (.inl hb) ((fitsBuffer_iff _).mp hfits1),
    pppRx_cons_of_room (.inl (by rw [hget]; exact hne)),
    pppByte_stores (.inl hc) (by rw [hget, setRb_cfg]; exact hfits2), hget, pppRx, setRb_eq, setRb_rb,
    rbSet_rbSet_of_ne_nil _ _ hne (by simp), List.append_assoc]
  rfl

/-! ## Several units one after the other (R300, R307) -/

theorem runFor_add {j k : Nat} {s t u : State} (hj : runFor j s = .next t) (hk : runFor k t = .next u) :
    runFor (j + k) s = .next u := by
  induction j generalizing s with
  | zero =>
    obtain rfl := Host.Outcome.next.inj hj
    rwa [Nat.zero_add]
  | succ j ih =>
    rw [runFor] at hj
    rw [Nat.succ_add, runFor]
    cases hstep : step s with
    | next x =>
      rw [hstep] at hj
      exact ih hj
    | fault r => cases r
    | refused r =>
      rw [hstep] at hj
      cases hj

theorem step_unit {u : WireUnit} {rest : List Stimulus} {s : State} (h : s.inputs = .word (.unit u) :: rest) :
    step s = .next (sendUnit u (setInputs rest s)) := by
  rw [step, h]
  dsimp only
  cases hdec : decode (.unit u) with
  | ok i => exact exec_of_unit (encodeUndoesDecode i _ hdec).2 _
  | error e => rfl

/-- A unit is sent in one step and taken in one more for each of its bytes. -/
theorem runFor_unit {u : WireUnit} {rest : List Stimulus} {s : State} (h : s.inputs = .word (.unit u) :: rest) :
    runFor (1 + (linkBytes s.cfg u).length) s = .next (rxBytes (linkBytes s.cfg u) (setInputs rest s)) :=
  runFor_add (t := sendUnit u (setInputs rest s)) (runFor_succ (k := 0) (step_unit h))
    (runFor_arrive (linkBytes s.cfg u) (setInputs rest s))

/-- A packet of the reply that `s` waits for, from a source whose way is clear. -/
structure ReplyPacket (src : Addr) (s : State) (m : InnerMessage) : Prop where
  way : wayIsClear src (pppBuild s.cfg.smaProtocolId (innerUnit m)) s
  wf : m.wf = true
  matching : matching m s
  error : m.error = 0
  to2 : m.to2 = s.localAddr2 ∨ m.to2 = s.cfg.bcast2

/-- Collecting other packets does not change whether a packet is one of the reply. -/
theorem ReplyPacket.collected {src : Addr} {s : State} {m : InnerMessage} (h : ReplyPacket src s m)
    (rest : List Stimulus) (e : U17) (msgs : List InnerMessage) (c : Cst) :
    ReplyPacket src (collected e msgs c (setInputs rest s)) m :=
  ⟨h.way, h.wf, h.matching, h.error, h.to2⟩

/-- The unit of a packet of the reply, once taken, has gone to ACC_STEP. -/
theorem runFor_replyPacket {src : Addr} {s : State} {m : InnerMessage} (h : ReplyPacket src s m)
    (hmulti : s.pend.mode = .multi) {rest : List Stimulus}
    (hin : s.inputs = .word (.unit (.innerMessage src (innerUnit m))) :: rest) :
    ∃ k, runFor k s = .next (accStep m (setInputs rest s)) := by
  refine ⟨_, (runFor_unit hin).trans (congrArg _ ?_)⟩
  exact (rxBytes_message (s := setInputs rest s) h.wf h.way h.to2).trans
    (dispatch_of_multi (s := setInputs rest s) h.matching h.error hmulti)

/-- The stimuli of the units of a list of messages. -/
def unitsOf (src : Addr) (msgs : List InnerMessage) : List Stimulus :=
  msgs.map fun m => .word (.unit (.innerMessage src (innerUnit m)))

/-- The state after a reply whose messages are `msgs`. -/
def replied (msgs : List InnerMessage) (rest : List Stimulus) (s : State) : State :=
  setAcc none [] (closeWait .complete (emit (.resultMulti msgs) (setInputs rest s)))

/-- Collecting the rest of a reply: some messages are collected, and those to come count down to 0. -/
theorem exists_runFor_collect {src : Addr} {rest : List Stimulus} {e : U17} {msgs : List InnerMessage}
    (hne : msgs ≠ []) {s : State} (hin : s.inputs = unitsOf src msgs ++ rest) (hmulti : s.pend.mode = .multi)
    (hx : s.accExpected = some e) (he : s.accCollected.length + msgs.length = e.toNat)
    (hpkt : ∀ m ∈ msgs, ReplyPacket src s m)
    (hcount : ∀ i m, msgs[i]? = some m → m.pktcount.toNat + i + 1 = msgs.length) :
    ∃ k, runFor k s = .next (replied (s.accCollected ++ msgs) rest s) := by
  induction msgs generalizing s with
  | nil => exact absurd rfl hne
  | cons m ms ih =>
    have hm : m.pktcount.toNat = ms.length := by simpa using hcount 0 m rfl
    obtain ⟨j, hj⟩ := runFor_replyPacket (rest := unitsOf src ms ++ rest) (hpkt m List.mem_cons_self) hmulti hin
    rw [List.length_cons] at he
    rw [accStep_collects_next (s := setInputs (unitsOf src ms ++ rest) s) hx
      (by rw [setInputs_accCollected]; omega)] at hj
    by_cases hlast : ms = []
    · subst hlast
      rw [accFinish_of_last hm (by simp [collected]; simp at he; omega)] at hj
      exact ⟨j, hj⟩
    · have hpos := List.length_pos_of_ne_nil hlast
      rw [accFinish_of_more (by omega)] at hj
      obtain ⟨k, hk⟩ := ih hlast (s := collected e (s.accCollected ++ [m]) s.cst (setInputs (unitsOf src ms ++ rest) s))
        rfl hmulti rfl (by simp [collected]; omega)
        (fun x hxm => (hpkt x (List.mem_cons_of_mem _ hxm)).collected _ _ _ _)
        (fun i x hi => by have := hcount (i + 1) x hi; simp at this; omega)
      refine ⟨j + k, (runFor_add hj hk).trans (congrArg _ ?_)⟩
      simp only [replied, collected, setAcc_accCollected, List.append_assoc, List.singleton_append]
      rfl

end Sys2Proof.Machine

/-! PROOF. The units of the wire formats, a reply in several packets, and a message from one block to another
(R92, R95, R100, R105, R110, R300, R327). -/

namespace Sys2Proof.Machine
open Sys2Proof Sys2Proof.Spec

/-! ## Symbols (R95) -/

/-- A stream that fits into one payload comes in as one carrier frame. -/
theorem arrive_carry_short {stream : List Byte} (hne : stream ≠ []) (hlen : stream.length ≤ maxPayload) (src : Addr)
    (s : State) : arrive (carry s.cfg src stream) s = arriving (carrierFrame src s stream) s := by
  rw [carry_short s.cfg src hne hlen, ← carrierFrame_eq]
  rfl

theorem exec_fmtFlag (src : Addr) (s : State) :
    exec (.fmtFlag src) s = .next (arriving (carrierFrame src s [flag]) s) :=
  congrArg Host.Outcome.next (arrive_carry_short (by simp) (by simp [maxPayload]) src s)

theorem exec_fmtEscapePair (src : Addr) (v : Byte) (s : State) :
    exec (.fmtEscapePair src v) s = .next (arriving (carrierFrame src s [esc, v]) s) :=
  congrArg Host.Outcome.next (arrive_carry_short (by simp) (by simp [maxPayload]) src s)

/-- The 19 bytes that carry a flag hand it to PPP_RX. -/
theorem runFor_carriedFlag {s : State} (hob : s.ob = []) (src : Addr) :
    runFor 19 (arriving (carrierFrame src s [flag]) s) = .next (pppRx src [flag] s) :=
  runFor_carrierFrame hob (payload := [flag]) (by simp [maxPayload]) src

/-- The 20 bytes that carry an escape pair hand it to PPP_RX. -/
theorem runFor_carriedPair {s : State} (hob : s.ob = []) (src : Addr) (v : Byte) :
    runFor 20 (arriving (carrierFrame src s [esc, v]) s) = .next (pppRx src [esc, v] s) :=
  runFor_carrierFrame hob (payload := [esc, v]) (by simp [maxPayload]) src

/-- Settles O42: PPP_RX of the symbol, which one outer frame carries. -/
theorem symbolsJoinTheStuffedStream : Obligations.SymbolsJoinTheStuffedStream := by
  intro src v s
  refine ⟨exec_fmtFlag src s, exec_fmtEscapePair src v s, fun hob hbuf hroom hfits => ?_, fun hob hbuf => ?_,
    fun hob hv hroom hfits => ?_⟩
  · exact (runFor_carriedFlag hob src).trans (congrArg _ (pppRx_opens hbuf hroom hfits []))
  · exact (runFor_carriedFlag hob src).trans
      (congrArg _ ((pppRx_ends hbuf).trans (pppDeliver_eq_extracted (rbGet s.rb src ++ [flag]))))
  · exact (runFor_carriedPair hob src v).trans (congrArg _ (pppRx_pair (by decide) hv hroom hfits))

/-! ## Outer frames (R100) -/

/-- Settles O43: from an empty `OB` its bytes deliver the frame, and OUTER_DELIVER has three cases. -/
theorem outerFrameIsDeliveredWhole : Obligations.OuterFrameIsDeliveredWhole := by
  rintro src dst typ payload bytes s hlen rfl
  rw [← outerUnit_eq_frameBytes]
  refine ⟨rfl, fun hob => ?_⟩
  rw [runFor_arriving, rxBytes_outerUnit hob hlen, ← outerFilter_iff]
  refine ⟨fun hdst => ?_, fun hdst => ⟨fun h1 h2 => ?_, fun hcarrier => ?_⟩⟩
  · rw [outerDeliver_of_filtered (by rwa [outerUnit_dst])]
  · rw [outerDeliver_of_other (by rwa [outerUnit_dst]) (by rw [outerUnit_typ, isCarrier_iff, not_or]; exact ⟨h1, h2⟩),
      outerUnit_src, outerUnit_dst, outerUnit_typ, outerUnit_payload, emit_eq]
  · rw [outerDeliver_of_carrier (by rwa [outerUnit_dst]) (by rwa [outerUnit_typ, isCarrier_iff]), outerUnit_src,
      outerUnit_payload]

/-! ## PPP frames and inner messages (R105, R110) -/

/-- The bytes of a unit that is carried as a stuffed stream. -/
theorem arrive_carry_eq (src : Addr) (stream : List Byte) (s : State) :
    arrive (carry s.cfg src stream) s
      = arriving ((cut stream.length stream).flatMap (carrierFrame src s)) s := by
  rw [carry_eq_flatMap]
  rfl

/-- Taking the bytes of a carried stream one a step. -/
theorem runFor_carried (src : Addr) (stream : List Byte) (s : State) :
    runFor ((cut stream.length stream).flatMap (carrierFrame src s)).length
        (arriving ((cut stream.length stream).flatMap (carrierFrame src s)) s)
      = .next (rxBytes (carry s.cfg src stream) s) := by
  rw [runFor_arriving, carry_eq_flatMap]

/-- Settles O44: the pieces join into the stuffed frame, which R212 accepts. -/
theorem pppFrameReachesInnerRx : Obligations.PppFrameReachesInnerRx := fun src protocol body s =>
  ⟨_, _, cutsInto_cut _, rfl, congrArg Host.Outcome.next (arrive_carry_eq src (pppBuild protocol body) s),
    fun hway => (runFor_carried src _ s).trans (congrArg _ (rxBytes_carry_pppBuild hway))⟩

/-- Settles O45: what INNER_RX does with the body, which INNER_PARSE reads back as the message. -/
theorem innerMessageReachesDispatch : Obligations.InnerMessageReachesDispatch := by
  rintro src m s stream hwf rfl
  refine ⟨_, _, cutsInto_cut _, rfl, congrArg Host.Outcome.next (arrive_carry_eq src _ s), fun hway => ?_⟩
  rw [runFor_carried]
  refine ⟨fun hto => ?_, fun h2 hb => ?_⟩
  · rw [rxBytes_message hwf hway hto]
  · rw [rxBytes_carry_pppBuild hway, innerRx_of_filtered rfl (innerParse_innerUnit hwf) h2 hb]

/-! ## A reply in several packets (R300) -/

/-- Settles O46: the first packet opens the accumulation, and the rest is collected by induction on it. -/
theorem multiPacketReplyIsDeliveredInOrder : Obligations.MultiPacketReplyIsDeliveredInOrder := by
  rintro src msgs rest tag s hin hpend hx - hcap hway hmsgs ⟨m, hhead, hfirst⟩ hcount
  obtain ⟨ms, rfl⟩ := List.head?_eq_some_iff.mp hhead
  have hpacket : ∀ x ∈ m :: ms, ReplyPacket src s x := fun x hxm => by
    obtain ⟨hwf, hresponse, htag, herror, hto⟩ := hmsgs x hxm
    exact ⟨hway x hxm, hwf, ⟨by rw [hpend], hresponse, by rw [htag, hpend]⟩, herror, hto⟩
  have hm : m.pktcount.toNat = ms.length := by simpa using hcount 0 m rfl
  have he := toNat_pktcount_add_one m.pktcount
  have hmulti : s.pend.mode = .multi := by rw [hpend]
  suffices h : ∃ k, runFor k s = .next (replied (m :: ms) rest s) by
    obtain ⟨k, hk⟩ := h
    refine ⟨k, hk.trans (congrArg _ ?_)⟩
    rw [replied, closeWait_eq, emit_eq, setInputs_pend, hpend]
    rfl
  obtain ⟨j, hj⟩ := runFor_replyPacket (rest := unitsOf src ms ++ rest) (hpacket m List.mem_cons_self) hmulti hin
  rw [accStep_collects_first (s := setInputs (unitsOf src ms ++ rest) s) hx hfirst
    ((exceeds_eq_false_iff _ _).mpr fun c hc => by rw [hm]; exact hcap c hc)] at hj
  by_cases hlast : ms = []
  · subst hlast
    rw [accFinish_of_last hm (by rw [he, hm]; rfl)] at hj
    exact ⟨j, hj⟩
  · have hpos := List.length_pos_of_ne_nil hlast
    rw [accFinish_of_more (by omega)] at hj
    obtain ⟨k, hk⟩ := exists_runFor_collect hlast
      (s := collected (m.pktcount.setWidth 17 + 1) [m] .accumulating (setInputs (unitsOf src ms ++ rest) s))
      rfl hmulti rfl (by rw [he, hm]; exact Nat.add_comm 1 _)
      (fun x hxm => (hpacket x (List.mem_cons_of_mem _ hxm)).collected _ _ _ _)
      (fun i x hi => by have := hcount (i + 1) x hi; simp at this; omega)
    exact ⟨j + k, runFor_add hj hk⟩

/-! ## From one block to another (R3) -/

/-- What SEND with default operands appends to TXQ is nothing or the outer frame of the message, which fits. -/
theorem sent_cases {m : InnerMessage} {s s' : State} {frame : List Byte} (hwf : m.wf = true)
    (h : exec (.send m none none none) s = .next s') (htxq : s'.txq = s.txq ++ frame) :
    frame = [] ∨ (frame = messageFrame s.cfg.smaProtocolId s.localAddr bcast s.cfg.otypePpp m ∧ frame.length ≤ 0x70) := by
  rcases le_or_gt (messageFrame s.cfg.smaProtocolId s.localAddr bcast s.cfg.otypePpp m).length 0x70 with hfits | hlong
  · rw [exec_send_of_ok (buildFrame_of_fits _ _ _ _ hwf hfits)] at h
    obtain rfl := Host.Outcome.next.inj h
    have hframe := (List.append_cancel_left htxq).symm
    exact .inr ⟨hframe, hframe ▸ hfits⟩
  · rw [exec_send_of_err (buildFrame_of_long _ _ _ _ hwf hlong)] at h
    obtain rfl := Host.Outcome.next.inj h
    exact .inl (List.self_eq_append_right.mp htxq)

/-- Settles O47: the frame sent is a unit that carries the whole stuffed message, so it comes in as one. -/
theorem sentMessageIsDispatchedByTheReceiver : Obligations.SentMessageIsDispatchedByTheReceiver := by
  intro m s s' r frame rest hwf hexec htxq hne hproto htype hob hrb hbuf hroom hfits hto hin
  rcases sent_cases hwf hexec htxq with rfl | ⟨rfl, hlen⟩
  · exact absurd rfl hne
  · rw [messageFrame, outerUnit_length] at hlen
    have hstream : (pppBuild s.cfg.smaProtocolId (innerUnit m)).length ≤ maxPayload := by rw [maxPayload]; omega
    have hcarried : messageFrame s.cfg.smaProtocolId s.localAddr bcast s.cfg.otypePpp m
        = carry r.cfg s.localAddr (pppBuild r.cfg.smaProtocolId (innerUnit m)) := by
      rw [hproto, carry_short _ _ (by simp [pppBuild, stuff]) hstream, htype, messageFrame]
    have hway : wayIsClear s.localAddr (pppBuild r.cfg.smaProtocolId (innerUnit m)) (setInputs rest r) := by
      rw [hproto]
      exact ⟨hob, hrb, hbuf, hroom, fun c hc => le_trans (by rw [maxPayload] at hstream; omega) (hfits c hc)⟩
    rw [runFor_rxBytes hin, hcarried]
    exact congrArg Host.Outcome.next (rxBytes_message (s := setInputs rest r) hwf hway hto)

end Sys2Proof.Machine
